-- ==== Sys2Proof/Word.lean ====
section
/-! DEFINITION. The word types of CORE (00_scope.md R5 to R8): a u32 is a bit vector of 32 bits, a byte one of 8, a byte
string a list of bytes. -/
namespace Sys2Proof

/-- `u32`: a mask, a table entry, a checksum, a word on the host's port (R6). -/
abbrev Word := BitVec 32

/-- `u8` (R6). -/
abbrev Byte := BitVec 8

/-- A byte string (R8): `s[0]` is the head of the list. -/
abbrev Bytes := List Byte

/-- The 256-entry lookup table, TABLE_ENTRIES by TABLE_ENTRY_WIDTH (R5; 10_state.md R23). -/
abbrev Table := Vector Word 256

/-- `zext_32(v)` of a byte (R7). -/
def zext32 (b : Byte) : Word := b.setWidth 32

/-- `v[7:0]` (R6). -/
def lowByte (w : Word) : Byte := w.setWidth 8

end Sys2Proof
end

