-- ==== Sys2Proof/Syntax.lean ====
section
/-! DEFINITION. The commands of CORE: one constructor per row of the opcode table (30_encoding.md R53). A command word
holds no immediate and no register number (R55), so no constructor has an argument. -/
namespace Sys2Proof

/-- The six legal commands. ILLEGAL is no row of the table: the decoder answers it for every other word (R54), and
`Machine.execIllegal` is its effect (R56). -/
inductive Instr where
  /-- PARSE: OPBUF as text into MASK. -/
  | parse
  /-- BUILD: TABLE from ARG. -/
  | build
  /-- BUILD.M: TABLE from MASK. -/
  | buildM
  /-- COMPUTE: checksum OPBUF with TABLE. -/
  | compute
  /-- CRC32: TABLE from ARG, then checksum OPBUF. -/
  | crc32
  /-- CRC32.M: TABLE from MASK, then checksum OPBUF. -/
  | crc32M
  deriving DecidableEq, Repr

end Sys2Proof
end

