-- ==== Sys2Proof/WellFormed.lean ====
section
/-! DEFINITION. The fields of a command word (30_encoding.md R52) and the checks a legal one meets, in the words of the
list of illegal encodings (R56). -/
namespace Sys2Proof

/-- The fields of the command word (R52). -/
structure CmdFields where
  /-- Bits 3:0. -/
  op   : BitVec 4
  /-- Bit 4. -/
  src  : Bool
  /-- Bits 31:5. -/
  rsvd : BitVec 27
  deriving DecidableEq, Repr

/-- Why a command word is illegal: the three cases of R56. -/
inductive Illegal where
  /-- RSVD is not 0. -/
  | reservedBits
  /-- OP is 0x0 or one of 0x5 to 0xF. -/
  | unknownOp
  /-- OP is PARSE or COMPUTE, which take no mask, and SRC is 1. -/
  | srcNotAllowed
  deriving DecidableEq, Repr

namespace CmdFields

/-- "RSVD: reserved; must be 0" (R52). -/
def rsvdZero (f : CmdFields) : Bool := f.rsvd == 0#27

/-- OP names one of the four operations (R52). -/
def opKnown (f : CmdFields) : Bool := decide (1 ≤ f.op.toNat ∧ f.op.toNat ≤ 4)

/-- SRC "must be 0 for OP 1 and OP 3" (R52). -/
def srcAllowed (f : CmdFields) : Bool := !(f.src && (f.op == 1#4 || f.op == 3#4))

/-- A legal command word's fields. -/
def wellFormed (f : CmdFields) : Bool := f.rsvdZero && f.opKnown && f.srcAllowed

end CmdFields

/-- A command has no operand that could be out of range: each is well formed. -/
def Instr.wellFormed (i : Instr) : Bool :=
  match i with
  | .parse | .build | .buildM | .compute | .crc32 | .crc32M => true

end Sys2Proof
end

