-- ==== Sys2Proof/Decode.lean ====
section
/-! DEFINITION. Decoding a command word, total on the 2^32 words (30_encoding.md R54, R57), and its encoder (R52, R53). -/
namespace Sys2Proof

/-- What a word written to CMD stands for (R54). -/
inductive Command where
  /-- One of the six legal commands. -/
  | instr (i : Instr)
  /-- An illegal word, with the case of R56 it falls under. -/
  | illegal (why : Illegal)
  deriving DecidableEq, Repr

/-- The fields of a word (R52). -/
def CmdFields.ofWord (w : Word) : CmdFields :=
  { op := w.extractLsb' 0 4, src := w.getLsbD 4, rsvd := w.extractLsb' 5 27 }

/-- The word of the fields (R52). -/
def CmdFields.toWord (f : CmdFields) : Word := f.rsvd ++ BitVec.ofBool f.src ++ f.op

/-- `decode` (R54), which names the case of R56 where the word is illegal. -/
def decode (w : Word) : Command :=
  let f := CmdFields.ofWord w
  if f.rsvd ≠ 0#27 then .illegal .reservedBits
  else
    match f.op.toNat, f.src with
    | 1, false => .instr .parse
    | 2, false => .instr .build
    | 2, true  => .instr .buildM
    | 3, false => .instr .compute
    | 4, false => .instr .crc32
    | 4, true  => .instr .crc32M
    | 1, true  => .illegal .srcNotAllowed
    | 3, true  => .illegal .srcNotAllowed
    | _, _     => .illegal .unknownOp

/-- The OP and SRC fields of a command (the table of R53). -/
def Instr.fields (i : Instr) : CmdFields :=
  match i with
  | .parse   => ⟨1#4, false, 0#27⟩
  | .build   => ⟨2#4, false, 0#27⟩
  | .buildM  => ⟨2#4, true, 0#27⟩
  | .compute => ⟨3#4, false, 0#27⟩
  | .crc32   => ⟨4#4, false, 0#27⟩
  | .crc32M  => ⟨4#4, true, 0#27⟩

/-- The word of a command (R52, R53). -/
def encode (i : Instr) : Word := i.fields.toWord

/-- The command the decoder reads from the opcode table's bits `w`, numbered as the table numbers them: a command is one
32-bit word (R51), bit i of which is bit i of the table's row. A command with bits above bit 31 does not exist. -/
def decodeTableWord (nbits w : Nat) : Option Instr :=
  let v := w % 2 ^ nbits
  if v < 2 ^ 32 then
    match decode (BitVec.ofNat 32 v) with
    | .instr i   => some i
    | .illegal _ => none
  else none

end Sys2Proof
end

