-- ==== Sys2Proof/Config.lean ====
section
/-! DEFINITION. The parameters of 00_scope.md R5. The fixed ones are constants. The three that R5 leaves OPEN or makes a
parameter are the fields of `Config`, which the state carries and no step changes, so that every statement over all states
holds for every value of them (Log 7). -/
namespace Sys2Proof

/-- The parameters a model takes as arguments (00_scope.md R5). -/
structure Config where
  /-- BASE in units of 0x800 bytes: BASE "must be a multiple of 0x800" (20_memory.md R32). -/
  baseUnit  : Nat
  /-- OPBUF_MAX, the capacity of the operand buffer in bytes; `none` is unbounded. -/
  opbufMax  : Option Nat
  /-- X_CASE_FOLD: whether `X` counts as the variable letter. -/
  xCaseFold : Bool
  deriving DecidableEq, Repr

namespace Config

/-- The length of the register window in bytes (20_memory.md R32). -/
def windowBytes : Nat := 0x800

/-- BASE, the host byte address of offset 0 (20_memory.md R32). -/
def base (c : Config) : Nat := windowBytes * c.baseUnit

/-- The defaults R5 names (OPBUF_MAX unbounded, X_CASE_FOLD true); for BASE, which has none, 0 (Log 7). -/
def initial : Config := ⟨0, none, true⟩

/-- INIT, the accumulator's start value (R5). -/
def crcInit : Word := 0xFFFFFFFF#32

/-- XOROUT, the final XOR (R5). -/
def crcXorOut : Word := 0xFFFFFFFF#32

/-- SHIFTS_PER_ENTRY (R5). -/
def shiftsPerEntry : Nat := 8

/-- WS_SET, the bytes PARSE strips (R5; 40_parser.md R64). -/
def whitespace : Bytes := [0x09#8, 0x0A#8, 0x0B#8, 0x0C#8, 0x0D#8, 0x20#8]

end Config
end Sys2Proof
end

