-- ==== Sys2Proof/Machine/State.lean ====
section
/-! DEFINITION. The state of the machine: CORE's registers (10_state.md), the record a model must keep (60_exceptions.md
R102; 10_state.md R31), and what stands at CORE's one host port (20_memory.md R41, R43). -/
namespace Sys2Proof.Machine

/-- The legal values of STATUS.ERR (10_state.md R20). The code 7 is "never written by CORE" and has no name here. -/
inductive ErrCode where
  /-- 0 NONE. -/
  | none
  /-- 1 NO_X. -/
  | noX
  /-- 2 ZERO_MASK. -/
  | zeroMask
  /-- 3 NO_POLY. -/
  | noPoly
  /-- 4 NO_TABLE. -/
  | noTable
  /-- 5 OVERFLOW. -/
  | overflow
  /-- 6 ILLEGAL. -/
  | illegal
  deriving DecidableEq, Repr

/-- The fields of STATUS (10_state.md R19). `Status.word` of Machine/Flags.lean is the register as the host reads it;
its bits 31:7 are hard-wired to 0 and have no field (Log 2). -/
structure Status where
  /-- PARSE_OK, bit 0. -/
  parseOk     : Bool
  /-- TABLE_VALID, bit 1. -/
  tableValid  : Bool
  /-- RESULT_VALID, bit 2. -/
  resultValid : Bool
  /-- OVF, bit 3. -/
  ovf         : Bool
  /-- ERR, bits 6:4. -/
  err         : ErrCode
  deriving DecidableEq, Repr

/-- The registers of the map (20_memory.md R33). -/
inductive Reg where
  | cmd
  | arg
  | data
  | status
  | mask
  | result
  | tablePoly
  | oplen
  | table (i : Byte)
  deriving DecidableEq, Repr

/-- The two primitive accesses (20_memory.md R41). -/
inductive HostOp where
  | read
  | write (w : Word)
  deriving DecidableEq, Repr

/-- One access as it reaches the port: the operation, its width in bits and its byte address in the host's address space.
20_memory.md R35 gives a meaning only to 32-bit accesses at aligned addresses of the window; the others can be written down
so that the machine can be seen to give them none. -/
structure Access where
  op    : HostOp
  width : Nat
  addr  : Nat
  deriving DecidableEq, Repr

/-- What can happen to CORE from outside: a host access, or the reset input (70_reset_and_hazards.md R111), which "takes
effect between host accesses" (R112). -/
inductive Event where
  | access (a : Access)
  | reset
  deriving DecidableEq, Repr

/-- What a host read gets. -/
inductive Reply where
  /-- The value of the register. -/
  | word (w : Word)
  /-- No value: the register's contents are unspecified (10_state.md R31). Two such replies say nothing about whether the
  hardware's two words agree. -/
  | unspecified
  deriving DecidableEq, Repr

/-- The state of the machine. -/
structure State where
  /-- ARG (10_state.md R15). -/
  arg           : Word
  /-- OPBUF (R16). OPLEN is its length (R17). -/
  opbuf         : Bytes
  /-- STATUS (R19). -/
  status        : Status
  /-- MASK (R21). -/
  mask          : Word
  /-- TABLE (R23). -/
  table         : Table
  /-- TABLE_POLY (R25). -/
  tablePoly     : Word
  /-- RESULT (R26). -/
  result        : Word
  /-- The model's own: some COMPUTE, CRC32 or CRC32.M has succeeded since reset, which is when RESULT has a specified value
  (R31; Log 4). -/
  resultDefined : Bool
  /-- The model's own: every non-zero ERR, oldest first; no later command clears it (60_exceptions.md R102; Log 5). -/
  errLog        : List ErrCode
  /-- The parameters of 00_scope.md R5 (Log 7). -/
  cfg           : Config
  /-- The model's own: the events CORE has not yet taken, in the order the host issued them (20_memory.md R45; Log 1). -/
  inbox         : List Event
  /-- The model's own: what the host's reads have got, oldest first (Log 6). -/
  replies       : List Reply
  deriving DecidableEq, Repr

/-- Why the machine has no step: the accesses 20_memory.md R35 gives no meaning, "so the host is stuck there". Safe: a claim
about a run does not hold past one. -/
inductive Fault where
  /-- The access is not 32 bits wide. Raised by the port (Machine/Window.lean). Safe. -/
  | accessWidth
  /-- The access is at an offset of 0x800 or more, or below BASE. Raised by the port. Safe. -/
  | outsideWindow
  /-- The access is at an offset that is not a multiple of 4. Raised by the port. Safe. -/
  | misaligned
  deriving DecidableEq, Repr

/-- Why the machine has no meaning for a command. Every command has one, so no step answers a refusal. -/
inductive Refusal where
  /-- The command has no meaning yet. Raised by an arm of Machine/Dispatch.lean; none does. Safe. -/
  | notModelled (mnemonic : String)
  deriving DecidableEq, Repr

/-- STATUS at reset, 0x00000000 (10_state.md R30). -/
def Status.reset : Status :=
  { parseOk := false, tableValid := false, resultValid := false, ovf := false, err := .none }

/-- The state right after reset (10_state.md R30). TABLE, TABLE_POLY and RESULT, which R30 leaves unspecified, are 0 (DESIGN
CHOICE, Log 3; no command and no host read can tell). Nothing has been asked of the port. -/
def State.reset : State where
  arg           := 0#32
  opbuf         := []
  status        := Status.reset
  mask          := 0#32
  table         := Vector.replicate 256 0#32
  tablePoly     := 0#32
  result        := 0#32
  resultDefined := false
  errLog        := []
  cfg           := Config.initial
  inbox         := []
  replies       := []

end Sys2Proof.Machine
end

