-- ==== Sys2Proof/Machine/Flags.lean ====
section
/-! DEFINITION. STATUS as the host reads it (10_state.md R19, R20). -/
namespace Sys2Proof.Machine

/-- The number of an outcome code (10_state.md R20). -/
def ErrCode.code (e : ErrCode) : BitVec 3 :=
  match e with
  | .none     => 0#3
  | .noX      => 1#3
  | .zeroMask => 2#3
  | .noPoly   => 3#3
  | .noTable  => 4#3
  | .overflow => 5#3
  | .illegal  => 6#3

/-- The 32 bits of STATUS (10_state.md R19): ERR in 6:4, OVF 3, RESULT_VALID 2, TABLE_VALID 1, PARSE_OK 0; 31:7 read as 0. -/
def Status.word (t : Status) : Word :=
  0#25 ++ t.err.code ++ BitVec.ofBool t.ovf ++ BitVec.ofBool t.resultValid ++ BitVec.ofBool t.tableValid
    ++ BitVec.ofBool t.parseOk

end Sys2Proof.Machine
end

