-- ==== Sys2Proof/Machine/Ops.lean ====
section
/-! DEFINITION. The operations the commands and the port share: the end of a command, `raise Err(CODE)` (the counterpart of
taking an exception; CORE has no trap, 60_exceptions.md R98, R99), and the writes of each register. -/
namespace Sys2Proof.Machine

/-- The record of 60_exceptions.md R102: a code other than NONE is added to it. -/
def logError (code : ErrCode) (log : List ErrCode) : List ErrCode :=
  if code = .none then log else log ++ [code]

/-- What every command does last, failing or not (60_exceptions.md R98): OVF and OPBUF are cleared and ERR is written. -/
def State.endCommand (code : ErrCode) (s : State) : State :=
  { s with
    opbuf  := []
    status := { s.status with ovf := false, err := code }
    errLog := logError code s.errLog }

/-- The families of commands by what a failure of one writes (60_exceptions.md R98). -/
inductive FailKind where
  /-- An illegal word (30_encoding.md R56). -/
  | illegal
  /-- PARSE (40_parser.md R73). -/
  | parse
  /-- BUILD.M (41_engine.md R87). -/
  | build
  /-- COMPUTE, CRC32 and CRC32.M (41_engine.md R87). -/
  | checksum
  deriving DecidableEq, Repr

/-- What a failing command of the family writes beside OVF, OPBUF and ERR. -/
def State.failureWrites (k : FailKind) (s : State) : State :=
  match k with
  | .illegal  => s
  | .parse    => { s with mask := 0#32, status := { s.status with parseOk := false } }
  | .build    => s
  | .checksum => { s with status := { s.status with resultValid := false } }

/-- `raise Err(CODE)` (00_scope.md R9): the failure writes of the command's family, then the end of the command. -/
def State.raise (k : FailKind) (code : ErrCode) (s : State) : State :=
  (s.failureWrites k).endCommand code

/-- `MemRead(TABLE, i)` (20_memory.md R42). -/
def memRead (t : Table) (i : Byte) : Word := t[i.toNat]'i.isLt

/-- The table write of 41_engine.md R79: all 256 entries, TABLE_POLY and TABLE_VALID. -/
def State.writeTable (t : Table) (p : Word) (s : State) : State :=
  { s with table := t, tablePoly := p, status := { s.status with tableValid := true } }

/-- `RESULT <- r; STATUS.RESULT_VALID <- 1` (41_engine.md R84 to R86). RESULT is specified from then on (10_state.md R31). -/
def State.writeResult (r : Word) (s : State) : State :=
  { s with result := r, resultDefined := true, status := { s.status with resultValid := true } }

/-- `MASK <- m; STATUS.PARSE_OK <- 1` (40_parser.md R72). -/
def State.writeMask (m : Word) (s : State) : State :=
  { s with mask := m, status := { s.status with parseOk := true } }

/-- A host write of ARG (10_state.md R15). -/
def State.writeArg (w : Word) (s : State) : State := { s with arg := w }

/-- Whether a buffer of `n` bytes is full: `len(OPBUF) < OPBUF_MAX` fails (10_state.md R16). -/
def opbufFull (c : Config) (n : Nat) : Bool :=
  match c.opbufMax with
  | none   => false
  | some m => decide (m ≤ n)

/-- A host write of DATA (10_state.md R16): append the byte, or drop it and set OVF where OPBUF is full. -/
def State.pushByte (b : Byte) (s : State) : State :=
  if opbufFull s.cfg s.opbuf.length then { s with status := { s.status with ovf := true } }
  else { s with opbuf := s.opbuf ++ [b] }

/-- The host's read gets its answer. No register of CORE changes (20_memory.md R38). -/
def State.answer (r : Reply) (s : State) : State := { s with replies := s.replies ++ [r] }

/-- The reset input (70_reset_and_hazards.md R111): every register of CORE takes its value of 10_state.md R30. The
parameters, the events still to come and the model's records of replies and errors are no state of CORE and stay (Log 5). -/
def State.resetCore (s : State) : State :=
  { State.reset with errLog := s.errLog, cfg := s.cfg, inbox := s.inbox, replies := s.replies }

end Sys2Proof.Machine
end

