-- ==== Sys2Proof/Machine/Operands.lean ====
section
/-! DEFINITION. How each operand of a command is formed and checked (30_encoding.md R55; 10_state.md R17). -/
namespace Sys2Proof.Machine

/-- The mask operand of BUILD and CRC32 (SRC = 0): ARG, all 32 bits. -/
def argOperand (s : State) : Word := s.arg

/-- The mask operand of BUILD.M and CRC32.M (SRC = 1): MASK, "used only if STATUS.PARSE_OK = 1"; else the command fails with
NO_POLY. -/
def maskOperand (s : State) : Except ErrCode Word :=
  if s.status.parseOk then .ok s.mask else .error .noPoly

/-- The byte operand of the commands that consume OPBUF (class B, 30_encoding.md R61), exactly as written; a buffer that has
dropped a byte is never consumed, and the command fails with OVERFLOW (60_exceptions.md R97). -/
def bytesOperand (s : State) : Except ErrCode Bytes :=
  if s.status.ovf then .error .overflow else .ok s.opbuf

/-- The table operand of COMPUTE: TABLE, if one has been built since reset; else NO_TABLE (41_engine.md R84). -/
def tableOperand (s : State) : Except ErrCode Table :=
  if s.status.tableValid then .ok s.table else .error .noTable

/-- OPLEN, `min(len(OPBUF), 0xFFFFFFFF)` (10_state.md R17). -/
def oplen (s : State) : Word := BitVec.ofNat 32 (min s.opbuf.length 0xFFFFFFFF)

end Sys2Proof.Machine
end

