-- ==== Sys2Proof/Machine/Engine.lean ====
section
/-! DEFINITION. The CRC-32 engine: the table and checksum functions (41_engine.md R77 to R80) and the five commands that use
them (R82 to R87). -/
namespace Sys2Proof.Machine

/-- One shift of `TableEntry` (41_engine.md R77). -/
def shiftStep (p v : Word) : Word := if v.getLsbD 0 then (v >>> 1) ^^^ p else v >>> 1

/-- `repeat n` of the shift (R77). -/
def shiftSteps (p : Word) (n : Nat) (v : Word) : Word :=
  match n with
  | 0     => v
  | n + 1 => shiftSteps p n (shiftStep p v)

/-- `TableEntry(i, p)` (R77). -/
def tableEntry (i : Byte) (p : Word) : Word := shiftSteps p Config.shiftsPerEntry (zext32 i)

/-- `BuildTable(p)` (R78). -/
def buildTable (p : Word) : Table :=
  ⟨((List.range 256).map fun i => tableEntry (BitVec.ofNat 8 i) p).toArray, by simp⟩

/-- The index of one step of `Crc`, `(acc ^ zext_32(b)) & 0xFF` (R80; 20_memory.md R42). -/
def crcIndex (acc : Word) (b : Byte) : Byte := lowByte ((acc ^^^ zext32 b) &&& 0xFF#32)

/-- One step of `Crc` (R80). -/
def crcStep (t : Table) (acc : Word) (b : Byte) : Word := (acc >>> 8) ^^^ memRead t (crcIndex acc b)

/-- `Crc(s, T)` (R80). -/
def crc (s : Bytes) (t : Table) : Word := s.foldl (crcStep t) Config.crcInit ^^^ Config.crcXorOut

/-- The table write of a build from mask `p` (R79). -/
def State.rebuild (p : Word) (s : State) : State := s.writeTable (buildTable p) p

/-- The checksum of `bytes` over the state's TABLE into RESULT (R84 to R86). -/
def State.checksum (bytes : Bytes) (s : State) : State := s.writeResult (crc bytes s.table)

/-- BUILD (R82). It never fails. -/
def execBuild (s : State) : Host.Outcome State Fault Refusal :=
  .next ((s.rebuild (argOperand s)).endCommand .none)

/-- BUILD.M (R83). -/
def execBuildM (s : State) : Host.Outcome State Fault Refusal :=
  match maskOperand s with
  | .error e => .next (s.raise .build e)
  | .ok p    => .next ((s.rebuild p).endCommand .none)

/-- COMPUTE (R84): OVERFLOW is checked before NO_TABLE. -/
def execCompute (s : State) : Host.Outcome State Fault Refusal :=
  match bytesOperand s with
  | .error e => .next (s.raise .checksum e)
  | .ok bytes =>
    match tableOperand s with
    | .error e => .next (s.raise .checksum e)
    | .ok t    => .next ((s.writeResult (crc bytes t)).endCommand .none)

/-- CRC32 (R85): the checksum reads the table just written. -/
def execCrc32 (s : State) : Host.Outcome State Fault Refusal :=
  match bytesOperand s with
  | .error e  => .next (s.raise .checksum e)
  | .ok bytes => .next (((s.rebuild (argOperand s)).checksum bytes).endCommand .none)

/-- CRC32.M (R86): OVERFLOW is checked before NO_POLY. -/
def execCrc32M (s : State) : Host.Outcome State Fault Refusal :=
  match bytesOperand s with
  | .error e => .next (s.raise .checksum e)
  | .ok bytes =>
    match maskOperand s with
    | .error e => .next (s.raise .checksum e)
    | .ok p    => .next (((s.rebuild p).checksum bytes).endCommand .none)

end Sys2Proof.Machine
end

