-- ==== Sys2Proof/Machine/Parser.lean ====
section
/-! DEFINITION. PARSE and its helpers (40_parser.md R63 to R73), each under the name the spec gives it. -/
namespace Sys2Proof.Machine

/-- `strip(t)` (40_parser.md R64). -/
def strip (t : Bytes) : Bytes := t.filter fun b => !Config.whitespace.contains b

/-- `isX(b)` (R65): `x`, or `X` where X_CASE_FOLD holds. -/
def isX (fold : Bool) (b : Byte) : Bool := b == 0x78#8 || (fold && b == 0x58#8)

/-- `0x30 <= b <= 0x39` (R66). -/
def isDigit (b : Byte) : Bool := decide (0x30 ≤ b.toNat ∧ b.toNat ≤ 0x39)

/-- The optional caret after the letter (R66). -/
def dropCaret (c : Bytes) : Bytes :=
  match c with
  | []     => []
  | b :: r => if b = 0x5E#8 then r else c

/-- `decimal(s)` (R70): the value of a run of digits, unbounded. -/
def decimal (ds : Bytes) : Nat := ds.foldl (fun n b => 10 * n + (b.toNat - 0x30)) 0

/-- `termDegree` (R67) of the digits of a match: 1 where there is none. -/
def termDegree (ds : Bytes) : Nat := if ds = [] then 1 else decimal ds

/-- `degreeBit(d)` (R68): bit d for a degree up to 31; no bit for 32 and above. -/
def degreeBit (d : Nat) : Word := if d ≤ 31 then 1#32 <<< d else 0#32

/-- The loop of `scanTerms` (R66), with `c` the bytes from position i on and `m` the partial mask. Each round takes at least
one byte, so `n` rounds suffice for a string of n bytes. -/
def scanLoop (fold : Bool) (n : Nat) (m : Word) (c : Bytes) : Word :=
  match n, c with
  | 0, _          => m
  | _ + 1, []     => m
  | n + 1, b :: r =>
    if isX fold b then
      let d := dropCaret r
      scanLoop fold n (m ||| degreeBit (termDegree (d.takeWhile isDigit))) (d.dropWhile isDigit)
    else scanLoop fold n m r

/-- `scanTerms(c)` (R66). -/
def scanTerms (fold : Bool) (c : Bytes) : Word := scanLoop fold c.length 0#32 c

/-- The substring "+1" (R69). -/
def hasPlusOne (c : Bytes) : Bool :=
  match c with
  | a :: b :: r => (a == 0x2B#8 && b == 0x31#8) || hasPlusOne (b :: r)
  | _           => false

/-- `constTerm(c)` (R69): the substring "+1", or a last byte `1`. -/
def constTerm (c : Bytes) : Bool := hasPlusOne c || c.getLast? == some 0x31#8

/-- Steps 3 and 4 on a cleaned string: the terms' bits, and bit 0 where the constant-term heuristic holds (R63). -/
def polyMask (fold : Bool) (c : Bytes) : Word :=
  if constTerm c then scanTerms fold c ||| 1#32 else scanTerms fold c

/-- The parse of a text (R63): the mask, or NO_X (R65), or ZERO_MASK (R71). -/
def parsePolynomial (fold : Bool) (t : Bytes) : Except ErrCode Word :=
  let c := strip t
  if c.any (isX fold) then
    if polyMask fold c = 0#32 then .error .zeroMask else .ok (polyMask fold c)
  else .error .noX

/-- The outcome of PARSE, with OVERFLOW checked before the text is looked at (R63; 60_exceptions.md R97). -/
def parseOutcome (s : State) : Except ErrCode Word :=
  match bytesOperand s with
  | .error e => .error e
  | .ok t    => parsePolynomial s.cfg.xCaseFold t

/-- PARSE (R63, R72, R73). -/
def execParse (s : State) : Host.Outcome State Fault Refusal :=
  match parseOutcome s with
  | .error e => .next (s.raise .parse e)
  | .ok m    => .next ((s.writeMask m).endCommand .none)

end Sys2Proof.Machine
end

