-- ==== Sys2Proof/Machine/Dispatch.lean ====
section
/-! DEFINITION. The meaning of each command, one arm per row of the opcode table. -/
namespace Sys2Proof.Machine

def exec (i : Instr) (s : State) : Host.Outcome State Fault Refusal :=
  match i with
  | .parse => Sys2Proof.Machine.execParse s
  | .build => Sys2Proof.Machine.execBuild s
  | .buildM => Sys2Proof.Machine.execBuildM s
  | .compute => Sys2Proof.Machine.execCompute s
  | .crc32 => Sys2Proof.Machine.execCrc32 s
  | .crc32M => Sys2Proof.Machine.execCrc32M s

end Sys2Proof.Machine
end

