-- ==== Sys2Proof/Machine/Window.lean ====
section
/-! DEFINITION. The register window (20_memory.md R32 to R36): which accesses are inside the interface, the register map, and
what a read of each register answers. -/
namespace Sys2Proof.Machine

/-- The offset from BASE of an access (20_memory.md R32), or why the interface gives it no meaning (R35). -/
def windowOffset (c : Config) (a : Access) : Except Fault Nat :=
  if a.width ≠ 32 then .error .accessWidth
  else if a.addr < c.base ∨ c.base + Config.windowBytes ≤ a.addr then .error .outsideWindow
  else if (a.addr - c.base) % 4 ≠ 0 then .error .misaligned
  else .ok (a.addr - c.base)

/-- The register at an aligned offset of the window (R33); none at a reserved offset, 0x020 to 0x3FC (R34). -/
def regAt (off : Nat) : Option Reg :=
  if off = 0x000 then some .cmd
  else if off = 0x004 then some .arg
  else if off = 0x008 then some .data
  else if off = 0x00C then some .status
  else if off = 0x010 then some .mask
  else if off = 0x014 then some .result
  else if off = 0x018 then some .tablePoly
  else if off = 0x01C then some .oplen
  else if off < 0x400 then none
  else some (.table (BitVec.ofNat 8 ((off - 0x400) / 4)))

/-- The offset of a register (R33). -/
def Reg.offset (r : Reg) : Nat :=
  match r with
  | .cmd       => 0x000
  | .arg       => 0x004
  | .data      => 0x008
  | .status    => 0x00C
  | .mask      => 0x010
  | .result    => 0x014
  | .tablePoly => 0x018
  | .oplen     => 0x01C
  | .table i   => 0x400 + 4 * i.toNat

/-- A word where its value is specified; no value where it is not (10_state.md R31). -/
def specifiedWhen (specified : Bool) (w : Word) : Reply := if specified then .word w else .unspecified

/-- What a read of a register answers (R33, R34; 10_state.md R31): the write-only ones read as 0. -/
def readReg (r : Reg) (s : State) : Reply :=
  match r with
  | .cmd       => .word 0#32
  | .arg       => .word s.arg
  | .data      => .word 0#32
  | .status    => .word s.status.word
  | .mask      => .word s.mask
  | .result    => specifiedWhen s.resultDefined s.result
  | .tablePoly => specifiedWhen s.status.tableValid s.tablePoly
  | .oplen     => .word (oplen s)
  | .table i   => specifiedWhen s.status.tableValid (memRead s.table i)

/-- `HostRead(off)` (R41): the register there, or 0 at a reserved offset (R34). -/
def hostRead (off : Nat) (s : State) : Reply :=
  match regAt off with
  | none   => .word 0#32
  | some r => readReg r s

end Sys2Proof.Machine
end

