-- ==== Sys2Proof/Machine/Port.lean ====
section
/-! DEFINITION. The host port: what a write to CMD runs, and what each access does (10_state.md R18; 20_memory.md R34, R41;
30_encoding.md R54, R56). -/
namespace Sys2Proof.Machine

/-- The effect of an illegal word (30_encoding.md R56): ERR is ILLEGAL, OVF and OPBUF are cleared, and nothing else changes. -/
def execIllegal (s : State) : State := s.raise .illegal .illegal

/-- A write of `w` to CMD "starts exactly one command, decoded from w" (10_state.md R18). -/
def runCommand (w : Word) (s : State) : Host.Outcome State Fault Refusal :=
  match decode w with
  | .instr i   => exec i s
  | .illegal _ => .next (execIllegal s)

/-- `HostWrite(off, w)` (20_memory.md R41): a write anywhere but to CMD, ARG or DATA is ignored (R34). -/
def hostWrite (off : Nat) (w : Word) (s : State) : Host.Outcome State Fault Refusal :=
  match regAt off with
  | some .cmd  => runCommand w s
  | some .arg  => .next (s.writeArg w)
  | some .data => .next (s.pushByte (lowByte w))
  | some .status | some .mask | some .result | some .tablePoly | some .oplen | some (.table _) => .next s
  | none       => .next s

/-- One access at the port; one outside the interface has no step (20_memory.md R35). -/
def hostAccess (a : Access) (s : State) : Host.Outcome State Fault Refusal :=
  match windowOffset s.cfg a with
  | .error f => .fault f
  | .ok off =>
    match a.op with
    | .read    => .next (s.answer (hostRead off s))
    | .write w => hostWrite off w s

/-- One event: an access, or the reset input (70_reset_and_hazards.md R111, R112). -/
def takeEvent (e : Event) (s : State) : Host.Outcome State Fault Refusal :=
  match e with
  | .access a => hostAccess a s
  | .reset    => .next s.resetCore

/-- The 32-bit access `op` of the register window at offset `off` (20_memory.md R41). -/
def accessAt (c : Config) (op : HostOp) (off : Nat) : Event := .access ⟨op, 32, c.base + off⟩

/-- The host's write of a command word to CMD (10_state.md R18). -/
def commandWrite (c : Config) (w : Word) : Event := accessAt c (.write w) Reg.cmd.offset

/-- One step: take the oldest event. With none CORE "is idle, and it keeps all state" (60_exceptions.md R110). -/
def takeNext (s : State) : Host.Outcome State Fault Refusal :=
  match s.inbox with
  | []        => .next s
  | e :: rest => takeEvent e { s with inbox := rest }

end Sys2Proof.Machine
end

