-- ==== Sys2Proof/Machine/Step.lean ====
section
/-! DEFINITION. One step of the machine, and how the host's table word is put where the next step finds it. -/
namespace Sys2Proof.Machine

/-- One step: the oldest host access or reset, or nothing (20_memory.md R45; 60_exceptions.md R110). -/
def step (s : State) : Host.Outcome State Fault Refusal := takeNext s

/-- `s` with a write of the command word `w` to CMD standing before every other event, so that the next step runs it (Log 8). -/
def State.withFetchWord (s : State) (nbits w : Nat) : State :=
  { s with inbox := commandWrite s.cfg (BitVec.ofNat 32 (w % 2 ^ nbits)) :: s.inbox }

end Sys2Proof.Machine
end

