-- ==== Sys2Proof/Machine/Asm.lean ====
section
/-! DEFINITION. Programs for CORE: the statements and pseudo-instructions of the assembler syntax, the host accesses each stands
for, and the reading of a line of text (30_encoding.md R58 to R62; Log 9). A program is a list of host accesses: it runs by
standing in the state's `inbox`. -/
namespace Sys2Proof.Machine

/-- The statements of 30_encoding.md R58 and the pseudo-instructions of R60. -/
inductive Stmt where
  | parse (str : Bytes)
  | build (imm : Word)
  | buildM
  | compute (str : Bytes)
  | crc32 (imm : Word) (str : Bytes)
  | crc32M (str : Bytes)
  | wr (r : Reg) (imm : Word)
  | rd (r : Reg)
  /-- `CRCSTD <str>`. -/
  | crcstd (str : Bytes)
  /-- `PCRC <polystr>, <str>`. -/
  | pcrc (poly str : Bytes)
  | nop
  /-- `.WORD <imm32>`. -/
  | word (imm : Word)
  deriving DecidableEq, Repr

/-- One entry of a program's encoding, `(W|R, offset, word)` (R62). -/
structure Entry where
  op  : HostOp
  off : Nat
  deriving DecidableEq, Repr

/-- `WR <reg>, <imm32>` (R58). -/
def wrEntry (r : Reg) (w : Word) : Entry := ⟨.write w, r.offset⟩

/-- `for each byte b of <str>: WR DATA, b` (R58); "a DATA write of byte b carries the word zext_32(b)" (R62). -/
def dataWrites (s : Bytes) : List Entry := s.map fun b => wrEntry .data (zext32 b)

/-- "A CMD write carries the command word of rule R53" (R62). -/
def cmdWrite (i : Instr) : Entry := wrEntry .cmd (encode i)

/-- The mask of `CRCSTD`: "the standard 0xEDB88320 reflected polynomial" (R60). -/
def standardMask : Word := 0xEDB88320#32

/-- `CRC32 <imm32>, <str>` (R58). -/
def crc32Encoding (imm : Word) (str : Bytes) : List Entry :=
  wrEntry .arg imm :: dataWrites str ++ [cmdWrite .crc32]

/-- The host accesses of a statement, in order (R58, R60, R62). -/
def Stmt.encoding (p : Stmt) : List Entry :=
  match p with
  | .parse s     => dataWrites s ++ [cmdWrite .parse]
  | .build imm   => [wrEntry .arg imm, cmdWrite .build]
  | .buildM      => [cmdWrite .buildM]
  | .compute s   => dataWrites s ++ [cmdWrite .compute]
  | .crc32 imm s => crc32Encoding imm s
  | .crc32M s    => dataWrites s ++ [cmdWrite .crc32M]
  | .wr r imm    => [wrEntry r imm]
  | .rd r        => [⟨.read, r.offset⟩]
  | .crcstd s    => crc32Encoding standardMask s
  | .pcrc p s    => dataWrites p ++ [cmdWrite .parse] ++ (dataWrites s ++ [cmdWrite .crc32M])
  | .nop         => []
  | .word imm    => [wrEntry .cmd imm]

/-- A program's accesses as events of the port of a CORE whose window is at BASE. -/
def programEvents (c : Config) (ps : List Stmt) : List Event :=
  (ps.flatMap Stmt.encoding).map fun e => accessAt c e.op e.off

/-- The ASCII codes of a text (00_scope.md R8). -/
def ascii (s : String) : Bytes := s.toList.map fun ch => BitVec.ofNat 8 ch.toNat

/-- A token of a line. -/
inductive Token where
  /-- A mnemonic, register name or number. -/
  | word (s : Bytes)
  /-- A string in quotes, its escapes replaced. -/
  | str (s : Bytes)
  /-- One of `,` `[` `]` and the two braces. -/
  | punct (b : Byte)
  deriving DecidableEq, Repr

/-- The value of a hexadecimal digit. -/
def hexDigit (b : Byte) : Option Nat :=
  if isDigit b then some (b.toNat - 0x30)
  else if 0x41 ≤ b.toNat ∧ b.toNat ≤ 0x46 then some (b.toNat - 0x37)
  else if 0x61 ≤ b.toNat ∧ b.toNat ≤ 0x66 then some (b.toNat - 0x57)
  else none

/-- The rest of a quoted string (R59): its bytes, and what follows the closing quote. A raw byte that is no ASCII character,
0x80 or more, for which R59 gives nothing, stands for itself (DESIGN CHOICE, Log 9). -/
def quoted (c : Bytes) : Option (Bytes × Bytes) :=
  match c with
  | [] => none
  | b :: r =>
    if b = 0x22#8 then some ([], r)
    else if b = 0x5C#8 then
      match r with
      | [] => none
      | e :: r' =>
        if e = 0x22#8 ∨ e = 0x5C#8 then (quoted r').map fun q => (e :: q.1, q.2)
        else if e = 0x78#8 then
          match r' with
          | h :: l :: r'' =>
            match hexDigit h, hexDigit l with
            | some hi, some lo => (quoted r'').map fun q => (BitVec.ofNat 8 (16 * hi + lo) :: q.1, q.2)
            | _, _ => none
          | _ => none
        else none
    else (quoted r).map fun q => (b :: q.1, q.2)

/-- A byte of a mnemonic, register name or number: a letter, a digit, `_` or `.`. -/
def isWordByte (b : Byte) : Bool :=
  isDigit b || decide (0x41 ≤ b.toNat ∧ b.toNat ≤ 0x5A) || decide (0x61 ≤ b.toNat ∧ b.toNat ≤ 0x7A)
    || b == 0x5F#8 || b == 0x2E#8

/-- The tokens of a line, of which `;` starts a comment (R58). Each round takes at least one byte. -/
def tokens (n : Nat) (c : Bytes) : Option (List Token) :=
  match n, c with
  | 0, _          => some []
  | _ + 1, []     => some []
  | n + 1, b :: r =>
    if b = 0x3B#8 then some []
    else if Config.whitespace.contains b then tokens n r
    else if b = 0x22#8 then
      match quoted r with
      | none        => none
      | some (s, q) => (tokens n q).map (.str s :: ·)
    else if [0x2C#8, 0x5B#8, 0x5D#8, 0x7B#8, 0x7D#8].contains b then (tokens n r).map (.punct b :: ·)
    else if isWordByte b then
      (tokens n (r.dropWhile isWordByte)).map (.word (b :: r.takeWhile isWordByte) :: ·)
    else none

/-- The value of a run of hexadecimal digits. -/
def hexValue (ds : Bytes) : Option Nat :=
  ds.foldl (fun n b => n.bind fun v => (hexDigit b).map (16 * v + ·)) (some 0)

/-- "a hexadecimal `0x...` or decimal literal" (R58). -/
def numeral (s : Bytes) : Option Nat :=
  match s with
  | []             => none
  | [d]            => if isDigit d then some (decimal [d]) else none
  | z :: x :: rest =>
    if z = 0x30#8 ∧ x = 0x78#8 then (if rest = [] then none else hexValue rest)
    else if s.all isDigit then some (decimal s) else none

/-- A literal of at most `max`. R58 states the form, hexadecimal or decimal, for `<imm32>` only; that a byte value of a byte
list and the index of `TABLE[n]` have the same form, and no `0b` form, is the model's (DESIGN CHOICE, Log 9). -/
def literal (max : Nat) (t : Token) : Option Nat :=
  match t with
  | .word s => (numeral s).filter (· ≤ max)
  | _       => none

/-- `<imm32>`, "0 to 0xFFFFFFFF" (R58). -/
def imm32 (t : Token) : Option Word := (literal 0xFFFFFFFF t).map (BitVec.ofNat 32)

/-- The items of a byte list up to its closing brace (R59). -/
def byteItems (ts : List Token) : Option (Bytes × List Token) :=
  match ts with
  | t :: .punct p :: r =>
    match literal 0xFF t with
    | none => none
    | some n =>
      if p = 0x7D#8 then some ([BitVec.ofNat 8 n], r)
      else if p = 0x2C#8 then (byteItems r).map fun q => (BitVec.ofNat 8 n :: q.1, q.2)
      else none
  | _ => none

/-- `<str>`: a byte-string literal (R59), and the tokens after it. -/
def strLiteral (ts : List Token) : Option (Bytes × List Token) :=
  match ts with
  | .str s :: r => some (s, r)
  | .word w :: .punct b :: r =>
    if w = ascii "bytes" ∧ b = 0x7B#8 then
      match r with
      | .punct e :: r' => if e = 0x7D#8 then some ([], r') else none
      | _              => byteItems r
    else none
  | _ => none

/-- `<reg>`: the names of 20_memory.md R33, and `TABLE[<n>]` (R58), with the tokens after it. -/
def register (ts : List Token) : Option (Reg × List Token) :=
  match ts with
  | .word w :: r =>
    if w = ascii "CMD" then some (.cmd, r)
    else if w = ascii "ARG" then some (.arg, r)
    else if w = ascii "DATA" then some (.data, r)
    else if w = ascii "STATUS" then some (.status, r)
    else if w = ascii "MASK" then some (.mask, r)
    else if w = ascii "RESULT" then some (.result, r)
    else if w = ascii "TABLE_POLY" then some (.tablePoly, r)
    else if w = ascii "OPLEN" then some (.oplen, r)
    else if w = ascii "TABLE" then
      match r with
      | .punct a :: t :: .punct b :: r' =>
        if a = 0x5B#8 ∧ b = 0x5D#8 then (literal 0xFF t).map fun n => (.table (BitVec.ofNat 8 n), r') else none
      | _ => none
    else none
  | _ => none

/-- A statement whose one operand is `<str>`. -/
def strStmt (k : Bytes → Stmt) (args : List Token) : Option Stmt :=
  match strLiteral args with
  | some (s, []) => some (k s)
  | _            => none

/-- A statement whose one operand is `<imm32>`. -/
def immStmt (k : Word → Stmt) (args : List Token) : Option Stmt :=
  match args with
  | [t] => (imm32 t).map k
  | _   => none

/-- A statement without operands. -/
def plainStmt (p : Stmt) (args : List Token) : Option Stmt := if args = [] then some p else none

/-- The tokens after a comma. -/
def afterComma (ts : List Token) : Option (List Token) :=
  match ts with
  | .punct b :: r => if b = 0x2C#8 then some r else none
  | _             => none

/-- A statement of R58 or R60 from the mnemonic and the tokens after it. -/
def statement (m : Bytes) (args : List Token) : Option Stmt :=
  if m = ascii "PARSE" then strStmt .parse args
  else if m = ascii "BUILD" then immStmt .build args
  else if m = ascii "BUILD.M" then plainStmt .buildM args
  else if m = ascii "COMPUTE" then strStmt .compute args
  else if m = ascii "CRC32" then
    match args with
    | t :: r => (imm32 t).bind fun imm => (afterComma r).bind (strStmt (.crc32 imm))
    | []     => none
  else if m = ascii "CRC32.M" then strStmt .crc32M args
  else if m = ascii "WR" then
    (register args).bind fun q => (afterComma q.2).bind (immStmt (.wr q.1))
  else if m = ascii "RD" then
    match register args with
    | some (r, []) => some (.rd r)
    | _            => none
  else if m = ascii "CRCSTD" then strStmt .crcstd args
  else if m = ascii "PCRC" then
    (strLiteral args).bind fun q => (afterComma q.2).bind (strStmt (.pcrc q.1))
  else if m = ascii "NOP" then plainStmt .nop args
  else if m = ascii ".WORD" then immStmt .word args
  else none

/-- The statement of a line: none on a line that holds only a comment or blanks; no answer where the line is not of the
syntax. -/
def assembleLine (line : Bytes) : Option (List Stmt) :=
  match tokens line.length line with
  | none                => none
  | some []             => some []
  | some (.word m :: r) => (statement m r).map ([·])
  | some _              => none

/-- A program, "one statement per line" (R58). -/
def assemble (lines : List Bytes) : Option (List Stmt) := (lines.mapM assembleLine).map List.flatten

end Sys2Proof.Machine
end

