-- ==== Sys2Proof/Safety.lean ====
section
/-! DEFINITION. What counts as a safe state and a safe step, in the terms the statements use. -/
namespace Sys2Proof.Safety

open Sys2Proof.Machine

/-- CORE's registers agree in the two states: everything of State but the parameters and the model's records. -/
def SameRegisters (s t : State) : Prop :=
  t.arg = s.arg ∧ t.opbuf = s.opbuf ∧ t.status = s.status ∧ t.mask = s.mask ∧ t.table = s.table ∧
    t.tablePoly = s.tablePoly ∧ t.result = s.result ∧ t.resultDefined = s.resultDefined

/-- What no command writes: the parameters, the events still to come, the replies of host reads. -/
def SameSurroundings (s t : State) : Prop := t.cfg = s.cfg ∧ t.inbox = s.inbox ∧ t.replies = s.replies

/-- TABLE, TABLE_POLY and TABLE_VALID agree. -/
def SameTable (s t : State) : Prop :=
  t.table = s.table ∧ t.tablePoly = s.tablePoly ∧ t.status.tableValid = s.status.tableValid

/-- RESULT, RESULT_VALID and whether RESULT is specified agree. -/
def SameResult (s t : State) : Prop :=
  t.result = s.result ∧ t.status.resultValid = s.status.resultValid ∧ t.resultDefined = s.resultDefined

/-- MASK and PARSE_OK agree. -/
def SameMask (s t : State) : Prop := t.mask = s.mask ∧ t.status.parseOk = s.status.parseOk

/-- How every command ends (60_exceptions.md R98, R102): OPBUF empty, OVF 0, ERR the outcome, a non-zero outcome logged. -/
def EndedWith (code : ErrCode) (s t : State) : Prop :=
  t.opbuf = [] ∧ t.status.ovf = false ∧ t.status.err = code ∧ t.errLog = logError code s.errLog

/-- TABLE holds the table of the mask `p` (41_engine.md R78, R79). -/
def TableOf (p : Word) (t : State) : Prop :=
  (∀ i : Byte, memRead t.table i = tableEntry i p) ∧ t.tablePoly = p ∧ t.status.tableValid = true

/-- The states agree in everything that has a specified value: they may differ in TABLE and TABLE_POLY while TABLE_VALID is 0,
and in RESULT while no checksum has succeeded (10_state.md R31). -/
def SameSpecified (s t : State) : Prop :=
  t.arg = s.arg ∧ t.opbuf = s.opbuf ∧ t.status = s.status ∧ t.mask = s.mask ∧ t.resultDefined = s.resultDefined ∧
    t.errLog = s.errLog ∧ SameSurroundings s t ∧
    (s.status.tableValid = true → t.table = s.table ∧ t.tablePoly = s.tablePoly) ∧
    (s.resultDefined = true → t.result = s.result)

/-- The invariant of the registers. -/
structure Inv (s : State) : Prop where
  /-- OPBUF has "length 0 to OPBUF_MAX" (10_state.md R16). -/
  bufferFits      : ∀ m, s.cfg.opbufMax = some m → s.opbuf.length ≤ m
  /-- OVF is set only by a write that found OPBUF full, and every command clears both (R16). -/
  ovfMeansFull    : s.status.ovf = true → opbufFull s.cfg s.opbuf.length = true
  /-- After a success of PARSE MASK is not 0 and PARSE_OK is 1; else MASK is 0 and PARSE_OK is 0 (R21; 40_parser.md R72). -/
  parseOkIffMask  : s.status.parseOk = true ↔ s.mask ≠ 0#32
  /-- With TABLE_VALID, "TABLE[i] = TableEntry(i, TABLE_POLY) for every i" (R24). -/
  tableMatches    : s.status.tableValid = true → ∀ i : Byte, memRead s.table i = tableEntry i s.tablePoly
  /-- A result that is marked valid is specified (R26, R31). -/
  validDefined    : s.status.resultValid = true → s.resultDefined = true
  /-- A checksum has been computed only over a table that was built (41_engine.md R84). -/
  definedTable    : s.resultDefined = true → s.status.tableValid = true
  /-- The code in ERR, if it is not NONE, is the last one of the model's record (60_exceptions.md R102). -/
  errIsLogged     : s.status.err ≠ .none → s.errLog.getLast? = some s.status.err
  /-- The record holds errors only (R102). -/
  logHoldsErrors  : ErrCode.none ∉ s.errLog

/-- `decimal` as 40_parser.md R70 writes it: the sum of each digit times its power of ten. -/
def decimalSum (ds : Bytes) : Nat :=
  ∑ i : Fin ds.length, ((ds.get i).toNat - 0x30) * 10 ^ (ds.length - 1 - i.val)

/-- The text has a term of degree `d`, as the pattern of 40_parser.md R66 and R67 reads: a variable letter, the caret if there
is one, and the longest run of digits after it, whose value is the degree; without digits the degree is 1. -/
def HasTerm (fold : Bool) (c : Bytes) (d : Nat) : Prop :=
  ∃ before x caret ds after,
    c = before ++ x :: (caret ++ ds ++ after) ∧ isX fold x = true ∧
    (caret = [0x5E#8] ∨ (caret = [] ∧ (ds ++ after).head? ≠ some 0x5E#8)) ∧
    (∀ b ∈ ds, isDigit b = true) ∧ (∀ b, after.head? = some b → isDigit b = false) ∧
    d = if ds = [] then 1 else decimalSum ds

/-- The bits of a byte, "least-significant bit first" (20_memory.md R37). -/
def bitsLsbFirst (b : Byte) : List Bool := (List.range 8).map b.getLsbD

/-- One bit of a reflected CRC without a table: combine the data bit with accumulator bit 0 and shift. -/
def serialStep (p acc : Word) (bit : Bool) : Word :=
  if (acc.getLsbD 0 ^^ bit) = true then (acc >>> 1) ^^^ p else acc >>> 1

/-- The checksum "bit-by-bit" (41_engine.md R94), over all the bits of the data in the order the engine consumes them. -/
def serialCrc (p : Word) (s : Bytes) : Word :=
  (s.flatMap bitsLsbFirst).foldl (serialStep p) 0xFFFFFFFF#32 ^^^ 0xFFFFFFFF#32

/-- The event writes `w` to CMD and `w` is the command `i` (10_state.md R18). -/
def Commands (c : Config) (e : Event) (i : Instr) : Prop := ∃ w, e = commandWrite c w ∧ decode w = .instr i

/-- "No non-zero ERR logged", the premise of a claim "with no error" (60_exceptions.md R102). -/
def noErrorLogged (s : State) : Bool := s.errLog == []

/-- The host's duty before it shows RESULT: "STATUS.ERR = 0 and RESULT_VALID = 1" (60_exceptions.md R108). -/
def freshResult (s : State) : Bool := s.status.err == .none && s.status.resultValid

/-- The event is an access of the interface: 32 bits wide, aligned, inside the window (20_memory.md R41). The reset input
always is one of the interface. -/
def eventDefined (c : Config) (e : Event) : Bool :=
  match e with
  | .access a => match windowOffset c a with
    | .error _ => false
    | .ok _    => true
  | .reset    => true

end Sys2Proof.Safety
end

