-- ==== Sys2Proof/Certificates/Slice0/Obligations.lean ====
section
/-! DEFINITION. The statements for the provers, from the numbered rules of spec/. -/

open Sys2Proof Sys2Proof.Machine Sys2Proof.Safety

/-! ## Encoding -/

/-- 30_encoding.md R53: the six legal words, and no other word is legal. -/
def Obligations.SixLegalWords : Prop :=
  (∀ w : Word, decode w = .instr .parse ↔ w = 0x00000001#32) ∧
  (∀ w : Word, decode w = .instr .build ↔ w = 0x00000002#32) ∧
  (∀ w : Word, decode w = .instr .buildM ↔ w = 0x00000012#32) ∧
  (∀ w : Word, decode w = .instr .compute ↔ w = 0x00000003#32) ∧
  (∀ w : Word, decode w = .instr .crc32 ↔ w = 0x00000004#32) ∧
  (∀ w : Word, decode w = .instr .crc32M ↔ w = 0x00000014#32)

/-- Decoding and encoding agree both ways: a word decodes to a well-formed command exactly where it is that command's
encoding, and the fields of every word give the word back. Rests on 30_encoding.md R52 to R54. -/
def Obligations.DecodeIffEncode : Prop :=
  (∀ (w : Word) (i : Instr), i.wellFormed = true → (decode w = .instr i ↔ w = encode i)) ∧
  (∀ w : Word, (CmdFields.ofWord w).toWord = w) ∧
  (∀ f : CmdFields, CmdFields.ofWord f.toWord = f)

/-- 95_test_vectors.md section 2.4: words written out bit by bit from the fields of R52, and what each decodes as. -/
def Obligations.WordsDecodeAsListed : Prop :=
  decode 0b00000000000000000000000000010010#32 = .instr .buildM ∧
  decode 0b00000000000000000000000000000011#32 = .instr .compute ∧
  decode 0b00000000000000000000000000000001#32 = .instr .parse ∧
  decode 0b00000000000000000000000000010001#32 = .illegal .srcNotAllowed ∧
  decode 0b00000000000000000000000000010011#32 = .illegal .srcNotAllowed ∧
  decode 0b00000000000000000000000000000101#32 = .illegal .unknownOp ∧
  decode 0b00000000000000000000000000100000#32 = .illegal .reservedBits ∧
  decode 0b10000000000000000000000000000100#32 = .illegal .reservedBits

/-- 30_encoding.md R56: when a word is illegal (RSVD, bits 31:5, is not 0; OP, bits 3:0, is 0 or 5 to 15; OP is 1 or 3 with
SRC, bit 4, set), and what writing it to CMD does. -/
def Obligations.IllegalWords : Prop :=
  (∀ w : Word, (∃ why, decode w = .illegal why) ↔
    (w >>> 5 ≠ 0#32 ∨ w.extractLsb' 0 4 = 0x0#4 ∨ 0x5 ≤ (w.extractLsb' 0 4).toNat ∨
      ((w.extractLsb' 0 4 = 0x1#4 ∨ w.extractLsb' 0 4 = 0x3#4) ∧ w.getLsbD 4 = true))) ∧
  (∀ (s : State) (rest : List Event) (w : Word) (why : Illegal),
    s.inbox = commandWrite s.cfg w :: rest → decode w = .illegal why →
    ∃ t, step s = .next t ∧ EndedWith .illegal s t ∧ t.arg = s.arg ∧ SameMask s t ∧ SameTable s t ∧ SameResult s t ∧
      t.cfg = s.cfg ∧ t.replies = s.replies ∧ t.inbox = rest)

/-! ## The port and the step -/

/-- A write of a legal word to CMD, the oldest event, is one step of that command's meaning, at the state with the event
taken. Rests on 10_state.md R18 and 30_encoding.md R54; `inbox` is Log 1. -/
def Obligations.StepRunsDecodedCommand : Prop :=
  ∀ (s : State) (rest : List Event) (w : Word) (i : Instr),
    s.inbox = commandWrite s.cfg w :: rest → decode w = .instr i → step s = exec i { s with inbox := rest }

/-- The word the host places with `withFetchWord` is the very next command the machine runs (Log 8). -/
def Obligations.PlacedWordRunsNext : Prop :=
  ∀ (s : State) (w : Nat) (i : Instr), decodeTableWord 32 w = some i → step (s.withFetchWord 32 w) = exec i s

/-- 20_memory.md R45, first clause: accesses take effect in the order the host issues them. A step takes the oldest event and
no other, and never adds one. -/
def Obligations.StepTakesOldestEvent : Prop :=
  ∀ s t : State, step s = .next t →
    (s.inbox = [] ∧ t = s) ∨ ∃ e, s.inbox = e :: t.inbox

/-- 60_exceptions.md R110: between commands CORE is idle and keeps all its state. -/
def Obligations.IdleKeepsState : Prop :=
  ∀ s : State, s.inbox = [] → step s = .next s

/-- An access has a step exactly if it is 32 bits wide, inside the window and aligned (20_memory.md R35); the reset input
always has one (70_reset_and_hazards.md R111; an event by Log 1). That an address below BASE has no step, where R35 names only
offsets of 0x800 or more, and that having no step is a fault, is the model's choice (DESIGN CHOICE, Log 10). -/
def Obligations.OnlyDefinedAccessesStep : Prop :=
  ∀ (s : State) (e : Event) (rest : List Event), s.inbox = e :: rest →
    ((∃ t, step s = .next t) ↔
      (e = .reset ∨ ∃ a : Access, e = .access a ∧ a.width = 32 ∧ s.cfg.base ≤ a.addr ∧ a.addr < s.cfg.base + 0x800 ∧
        (a.addr - s.cfg.base) % 4 = 0)) ∧
    (¬ (∃ t, step s = .next t) → ∃ f, step s = .fault f)

/-- 20_memory.md R33: the register at each offset, and that each register's own offset, an aligned one of the window, is one
of those it is found at. -/
def Obligations.RegisterMap : Prop :=
  regAt 0x000 = some .cmd ∧ regAt 0x004 = some .arg ∧ regAt 0x008 = some .data ∧ regAt 0x00C = some .status ∧
  regAt 0x010 = some .mask ∧ regAt 0x014 = some .result ∧ regAt 0x018 = some .tablePoly ∧ regAt 0x01C = some .oplen ∧
  (∀ off, 0x020 ≤ off → off ≤ 0x3FC → regAt off = none) ∧
  (∀ i : Byte, regAt (0x400 + 4 * i.toNat) = some (.table i)) ∧
  (∀ r : Reg, regAt r.offset = some r ∧ r.offset % 4 = 0 ∧ r.offset < 0x800)

/-- 20_memory.md R41, `HostRead`: what a read of each register, and of a reserved offset, answers, in a state where the
register's value is specified (10_state.md R31). -/
def Obligations.HostReadAnswers : Prop :=
  ∀ s : State,
    (∀ off r, off % 4 = 0 → off < 0x800 → s.inbox = accessAt s.cfg .read off :: r →
      step s = .next { s with inbox := r, replies := s.replies ++ [hostRead off s] }) ∧
    hostRead 0x000 s = .word 0#32 ∧ hostRead 0x004 s = .word s.arg ∧ hostRead 0x008 s = .word 0#32 ∧
    hostRead 0x00C s = .word s.status.word ∧ hostRead 0x010 s = .word s.mask ∧
    (s.resultDefined = true → hostRead 0x014 s = .word s.result) ∧
    (s.status.tableValid = true → hostRead 0x018 s = .word s.tablePoly) ∧
    hostRead 0x01C s = .word (BitVec.ofNat 32 (min s.opbuf.length 0xFFFFFFFF)) ∧
    (∀ off, 0x020 ≤ off → off ≤ 0x3FC → hostRead off s = .word 0#32) ∧
    (∀ i : Byte, s.status.tableValid = true →
      hostRead (0x400 + 4 * i.toNat) s = .word (s.table.get ⟨i.toNat, i.isLt⟩))

/-- 20_memory.md R38: a read changes no register. What a read of an offset answers depends on the registers alone, so where
only reads stand between two reads of one register both get the same: any run of reads, in any order and with any repeats,
gets at each offset what the state before the first of them answers there, and changes nothing else (`Host.Core.run` is the
host's k steps; an `unspecified` answer holds no value, Log 6). -/
def Obligations.ReadsHaveNoSideEffects : Prop :=
  (∀ (s : State) (off : Nat) (rest : List Event), off % 4 = 0 → off < 0x800 →
    s.inbox = accessAt s.cfg .read off :: rest →
    ∃ t, step s = .next t ∧ SameRegisters s t ∧ t.errLog = s.errLog ∧ t.cfg = s.cfg ∧ t.inbox = rest ∧
      ∃ a, t.replies = s.replies ++ [a] ∧
        ∀ w rest', a = .word w → rest = accessAt s.cfg .read off :: rest' →
          ∃ u, step t = .next u ∧ u.replies = s.replies ++ [.word w, .word w]) ∧
  (∀ s t : State, SameRegisters s t → ∀ off, hostRead off t = hostRead off s) ∧
  (∀ (s : State) (offs : List Nat) (rest : List Event), (∀ off ∈ offs, off % 4 = 0 ∧ off < 0x800) →
    s.inbox = offs.map (accessAt s.cfg .read) ++ rest →
    Sys2Proof.core.run offs.length s =
      .next { s with inbox := rest, replies := s.replies ++ offs.map fun off => hostRead off s })

/-- 20_memory.md R34: reserved offsets read as 0 and ignore writes, read-only registers ignore writes, write-only registers
read as 0. -/
def Obligations.ReservedAndReadOnly : Prop :=
  ∀ (s : State) (off : Nat) (rest : List Event), off % 4 = 0 → off < 0x800 →
    ((off = 0x000 ∨ off = 0x008 ∨ (0x020 ≤ off ∧ off ≤ 0x3FC)) → s.inbox = accessAt s.cfg .read off :: rest →
      step s = .next { s with inbox := rest, replies := s.replies ++ [.word 0#32] }) ∧
    (∀ w, 0x00C ≤ off → s.inbox = accessAt s.cfg (.write w) off :: rest → step s = .next { s with inbox := rest })

/-- 10_state.md R15: ARG stores every bit of a host write, reads as the last value written, is the mask operand of BUILD and
CRC32, is written by no command, and resets to 0. -/
def Obligations.ArgHoldsLastWrite : Prop :=
  (∀ (s : State) (w : Word) (rest : List Event), s.inbox = accessAt s.cfg (.write w) 0x004 :: rest →
    ∃ t, step s = .next t ∧ t.arg = w ∧ hostRead 0x004 t = .word w ∧
      t = { s with arg := w, inbox := rest }) ∧
  (∀ (s t : State), exec .build s = .next t → t.tablePoly = s.arg) ∧
  (∀ (s t : State), s.status.ovf = false → exec .crc32 s = .next t → t.tablePoly = s.arg) ∧
  (∀ (i : Instr) (s t : State), exec i s = .next t → t.arg = s.arg) ∧
  State.reset.arg = 0x00000000#32

/-- A write of DATA (10_state.md R16): the low byte is appended where there is room, else it is dropped and OVF is set;
nothing else changes; without a capacity OVF never changes. -/
def Obligations.DataWriteAppendsOrOverflows : Prop :=
  ∀ (s : State) (w : Word) (rest : List Event), s.inbox = accessAt s.cfg (.write w) 0x008 :: rest →
    ((∀ m, s.cfg.opbufMax = some m → s.opbuf.length < m) →
      step s = .next { s with inbox := rest, opbuf := s.opbuf ++ [w.extractLsb' 0 8] }) ∧
    (∀ m, s.cfg.opbufMax = some m → m ≤ s.opbuf.length →
      step s = .next { s with inbox := rest, status := { s.status with ovf := true } })

/-- Successive DATA writes fill OPBUF in the order of the writes, from any state with room for them, and change nothing else
(20_memory.md R36 and 70_reset_and_hazards.md R114; `Host.Core.run` is the host's k steps). -/
def Obligations.DataWritesFillBufferInOrder : Prop :=
  ∀ (s : State) (bytes : Bytes) (rest : List Event),
    s.inbox = bytes.map (fun b => accessAt s.cfg (.write (zext32 b)) 0x008) ++ rest →
    (∀ m, s.cfg.opbufMax = some m → s.opbuf.length + bytes.length ≤ m) →
    Sys2Proof.core.run bytes.length s = .next { s with inbox := rest, opbuf := s.opbuf ++ bytes }

/-! ## STATUS and reset -/

/-- The bits of STATUS (10_state.md R19) and the numbers of ERR (R20), for every content of the fields. -/
def Obligations.StatusLayout : Prop :=
  (∀ t : Status, t.word.getLsbD 0 = t.parseOk ∧ t.word.getLsbD 1 = t.tableValid ∧ t.word.getLsbD 2 = t.resultValid ∧
    t.word.getLsbD 3 = t.ovf ∧ t.word.extractLsb' 4 3 = t.err.code ∧ t.word >>> 7 = 0#32) ∧
  ErrCode.none.code = 0#3 ∧ ErrCode.noX.code = 1#3 ∧ ErrCode.zeroMask.code = 2#3 ∧ ErrCode.noPoly.code = 3#3 ∧
  ErrCode.noTable.code = 4#3 ∧ ErrCode.overflow.code = 5#3 ∧ ErrCode.illegal.code = 6#3

/-- 10_state.md R30: the reset values; a read of what R30 leaves unspecified gets no value. -/
def Obligations.ResetValues : Prop :=
  State.reset.arg = 0x00000000#32 ∧ State.reset.opbuf = [] ∧ hostRead 0x01C State.reset = .word 0x00000000#32 ∧
  State.reset.status.word = 0x00000000#32 ∧ State.reset.mask = 0x00000000#32 ∧
  (∀ i : Byte, hostRead (0x400 + 4 * i.toNat) State.reset = .unspecified) ∧
  hostRead 0x018 State.reset = .unspecified ∧ hostRead 0x014 State.reset = .unspecified

/-- 70_reset_and_hazards.md R111: the reset input, from any state, and the only way to clear TABLE_VALID. -/
def Obligations.ResetInputClearsEverything : Prop :=
  (∀ (s : State) (rest : List Event), s.inbox = .reset :: rest →
    ∃ t, step s = .next t ∧ t.arg = 0#32 ∧ t.mask = 0#32 ∧ t.status.word = 0#32 ∧ hostRead 0x01C t = .word 0#32 ∧
      t.opbuf = [] ∧ (∀ i : Byte, hostRead (0x400 + 4 * i.toNat) t = .unspecified) ∧ hostRead 0x018 t = .unspecified ∧
      hostRead 0x014 t = .unspecified ∧ t.cfg = s.cfg ∧ t.inbox = rest) ∧
  (∀ s t : State, step s = .next t → s.status.tableValid = true → t.status.tableValid = false →
    ∃ rest, s.inbox = .reset :: rest)

/-- 10_state.md R31: a read of an unspecified value gets none, and no command reads one: from two states that agree in
everything that has a specified value, a command leaves two states that do, and the host's reads get the same. -/
def Obligations.UnspecifiedValuesAreNotRead : Prop :=
  (∀ s : State, s.status.tableValid = false →
    (∀ j : Byte, hostRead (0x400 + 4 * j.toNat) s = .unspecified) ∧ hostRead 0x018 s = .unspecified) ∧
  (∀ s : State, s.resultDefined = false → hostRead 0x014 s = .unspecified) ∧
  (∀ s s' : State, SameSpecified s s' → ∀ off, hostRead off s' = hostRead off s) ∧
  (∀ (i : Instr) (s s' t t' : State), SameSpecified s s' → exec i s = .next t → exec i s' = .next t' → SameSpecified t t')

/-! ## The parser -/

/-- PARSE of a text with a variable letter and a mask that is not 0: it completes with the mask in MASK (40_parser.md R63,
R72), and leaves everything else as R74 says. -/
def Obligations.ParseSucceeds : Prop :=
  ∀ s : State, s.status.ovf = false → (∃ b ∈ strip s.opbuf, isX s.cfg.xCaseFold b = true) →
    polyMask s.cfg.xCaseFold (strip s.opbuf) ≠ 0#32 →
    ∃ t, exec .parse s = .next t ∧ t.mask = polyMask s.cfg.xCaseFold (strip s.opbuf) ∧ t.mask ≠ 0#32 ∧
      t.status.parseOk = true ∧ EndedWith .none s t ∧
      t.arg = s.arg ∧ SameTable s t ∧ SameResult s t ∧ SameSurroundings s t

/-- 40_parser.md R73: each failure of PARSE, when it happens, and what it writes (with R65, R71 and the order of
60_exceptions.md R97). -/
def Obligations.ParseFails : Prop :=
  ∀ (s : State) (code : ErrCode),
    ((code = .overflow ∧ s.status.ovf = true) ∨
     (code = .noX ∧ s.status.ovf = false ∧ ∀ b ∈ strip s.opbuf, isX s.cfg.xCaseFold b = false) ∨
     (code = .zeroMask ∧ s.status.ovf = false ∧ (∃ b ∈ strip s.opbuf, isX s.cfg.xCaseFold b = true) ∧
       polyMask s.cfg.xCaseFold (strip s.opbuf) = 0#32)) →
    ∃ t, exec .parse s = .next t ∧ t.mask = 0#32 ∧ t.status.parseOk = false ∧ EndedWith code s t ∧
      t.arg = s.arg ∧ SameTable s t ∧ SameResult s t ∧ SameSurroundings s t

/-- The mask of a text, bit by bit: bit d is set exactly if the cleaned text has a term of degree d, or d is 0 and the
constant-term heuristic holds. Rests on 40_parser.md R66 to R69; `HasTerm` is the source's pattern. -/
def Obligations.MaskBitsAreTheTerms : Prop :=
  ∀ (fold : Bool) (c : Bytes) (d : Nat), d < 32 →
    ((polyMask fold c).getLsbD d = true ↔ HasTerm fold c d ∨ (d = 0 ∧ constTerm c = true))

/-- Every variable letter starts exactly one term (40_parser.md R66): the scan, which goes on after each match, ORs in one bit
for each variable letter of the text, whatever stands before it. -/
def Obligations.EveryLetterStartsOneTerm : Prop :=
  ∀ (fold : Bool) (c : Bytes) (b : Byte),
    (isX fold b = true → scanTerms fold (b :: c) =
      degreeBit (termDegree ((dropCaret c).takeWhile isDigit)) ||| scanTerms fold c) ∧
    (isX fold b = false → scanTerms fold (b :: c) = scanTerms fold c)

/-- 40_parser.md R64: `strip` drops the six whitespace bytes and keeps the others in their order. -/
def Obligations.StripKeepsTheRestInOrder : Prop :=
  strip [] = [] ∧ ∀ (b : Byte) (t : Bytes),
    strip (b :: t) =
      if b = 0x09#8 ∨ b = 0x0A#8 ∨ b = 0x0B#8 ∨ b = 0x0C#8 ∨ b = 0x0D#8 ∨ b = 0x20#8 then strip t else b :: strip t

/-- 40_parser.md R65: which bytes are the variable letter, and that a text without one is NO_X. -/
def Obligations.VariableLetterCheck : Prop :=
  (∀ b : Byte, isX true b = true ↔ b = 0x78#8 ∨ b = 0x58#8) ∧ (∀ b : Byte, isX false b = true ↔ b = 0x78#8) ∧
  State.reset.cfg.xCaseFold = true ∧
  (∀ s : State, s.status.ovf = false →
    ((∃ t, exec .parse s = .next t ∧ t.status.err = .noX) ↔ ∀ b ∈ strip s.opbuf, isX s.cfg.xCaseFold b = false))

/-- 40_parser.md R68: the bit of a degree. -/
def Obligations.DegreeToMaskBit : Prop :=
  (∀ d k : Nat, d ≤ 31 → ((degreeBit d).getLsbD k = true ↔ k = d)) ∧ degreeBit 32 = 0#32 ∧
  (∀ d : Nat, 32 < d → degreeBit d = 0#32)

/-- 40_parser.md R69: when the constant-term heuristic holds, and that it ORs bit 0 into the mask, whatever the terms were. -/
def Obligations.ConstantTermHeuristic : Prop :=
  ∀ text : Bytes,
    (constTerm text = true ↔
      (∃ i, text[i]? = some 0x2B#8 ∧ text[i + 1]? = some 0x31#8) ∨
      (0 < text.length ∧ text[text.length - 1]? = some 0x31#8)) ∧
    (∀ fold, constTerm text = true → polyMask fold text = scanTerms fold text ||| 0x00000001#32) ∧
    (∀ fold, constTerm text = false → polyMask fold text = scanTerms fold text)

/-- 40_parser.md R70: the value of a run of digits has no bound, leading zeros do not change it, and above 32 it sets no
bit. -/
def Obligations.DecimalValueIsUnbounded : Prop :=
  ∀ ds : Bytes, ds ≠ [] → (∀ b ∈ ds, isDigit b = true) →
    decimal ds = decimalSum ds ∧ decimal (0x30#8 :: ds) = decimal ds ∧ (32 < decimal ds → degreeBit (decimal ds) = 0#32)

/-- 40_parser.md R75: the outcome of PARSE is a function of the bytes, the OVF bit and X_CASE_FOLD alone. -/
def Obligations.ParseIsDeterministic : Prop :=
  ∀ s s' : State, s'.opbuf = s.opbuf → s'.status.ovf = s.status.ovf → s'.cfg.xCaseFold = s.cfg.xCaseFold →
    ∃ t t', exec .parse s = .next t ∧ exec .parse s' = .next t' ∧
      t'.mask = t.mask ∧ t'.status.parseOk = t.status.parseOk ∧ t'.status.err = t.status.err

/-! ## The engine -/

/-- 41_engine.md R81: the laws of the table and of each step of it, and that no engine command fails on a mask or on bytes:
where the command has its operands (30_encoding.md R55), it ends with no error whatever mask and bytes they are. -/
def Obligations.TableLaws : Prop :=
  ∀ p : Word,
    tableEntry 0x00#8 p = 0#32 ∧ tableEntry 0x80#8 p = p ∧
    (∀ i j : Byte, tableEntry (i ^^^ j) p = tableEntry i p ^^^ tableEntry j p) ∧
    shiftStep p 0#32 = 0#32 ∧ (∀ v w : Word, shiftStep p (v ^^^ w) = shiftStep p v ^^^ shiftStep p w) ∧
    (p = 0#32 → ∀ i : Byte, tableEntry i p = 0#32) ∧
    (∀ s : State, s.arg = p → ∃ t, exec .build s = .next t ∧ t.status.err = .none) ∧
    (∀ s : State, s.mask = p → s.status.parseOk = true → ∃ t, exec .buildM s = .next t ∧ t.status.err = .none) ∧
    (∀ s : State, s.tablePoly = p → s.status.ovf = false → s.status.tableValid = true →
      ∃ t, exec .compute s = .next t ∧ t.status.err = .none) ∧
    (∀ s : State, s.arg = p → s.status.ovf = false → ∃ t, exec .crc32 s = .next t ∧ t.status.err = .none) ∧
    (∀ s : State, s.mask = p → s.status.ovf = false → s.status.parseOk = true →
      ∃ t, exec .crc32M s = .next t ∧ t.status.err = .none)

/-- 41_engine.md R94: one step of the table algorithm is eight reflected bit steps. -/
def Obligations.TableStepIsEightBitSteps : Prop :=
  ∀ (acc p : Word) (b : Byte), crcStep (buildTable p) acc b = shiftSteps p 8 (acc ^^^ zext32 b)

/-- The checksum by table is the bit-serial reflected CRC of the data's bits, least-significant bit of each byte first, for
every mask and every byte string (20_memory.md R37; 41_engine.md R80, R94). -/
def Obligations.ChecksumIsBitSerialCrc : Prop :=
  ∀ (p : Word) (s : Bytes), crc s (buildTable p) = serialCrc p s

/-- 41_engine.md R89: the checksum of no bytes is 0 for every table, and COMPUTE leaves it in RESULT. -/
def Obligations.EmptyDataChecksum : Prop :=
  (∀ t : Table, crc [] t = 0x00000000#32) ∧
  (∀ s : State, s.opbuf = [] → s.status.ovf = false → s.status.tableValid = true →
    ∃ t, exec .compute s = .next t ∧ t.result = 0x00000000#32)

/-- The rows of 41_engine.md R93 for the mask 0. -/
def Obligations.ZeroMaskChecksums : Prop :=
  (∀ a : Byte, crc [a] (buildTable 0#32) = 0xFF000000#32) ∧
  (∀ a b : Byte, crc [a, b] (buildTable 0#32) = 0xFFFF0000#32) ∧
  (∀ a b c : Byte, crc [a, b, c] (buildTable 0#32) = 0xFFFFFF00#32) ∧
  (∀ s : Bytes, 4 ≤ s.length → crc s (buildTable 0#32) = 0xFFFFFFFF#32)

/-- 41_engine.md R82: BUILD completes from every state with the table of ARG, and leaves the rest. -/
def Obligations.BuildCompletes : Prop :=
  encode .build = 0x00000002#32 ∧
  ∀ s : State, ∃ t, exec .build s = .next t ∧ TableOf s.arg t ∧ EndedWith .none s t ∧ t.arg = s.arg ∧ SameMask s t ∧
    SameResult s t ∧ SameSurroundings s t

/-- 41_engine.md R83: BUILD.M completes with the table of MASK if PARSE_OK is 1, and fails with NO_POLY, TABLE unchanged, if
it is 0. -/
def Obligations.BuildMCompletes : Prop :=
  encode .buildM = 0x00000012#32 ∧
  ∀ s : State,
    (s.status.parseOk = true → ∃ t, exec .buildM s = .next t ∧ TableOf s.mask t ∧ EndedWith .none s t ∧ t.arg = s.arg ∧
      SameMask s t ∧ SameResult s t ∧ SameSurroundings s t) ∧
    (s.status.parseOk = false → ∃ t, exec .buildM s = .next t ∧ EndedWith .noPoly s t ∧ t.arg = s.arg ∧ SameMask s t ∧
      SameTable s t ∧ SameResult s t ∧ SameSurroundings s t)

/-- 41_engine.md R84: COMPUTE completes with the checksum of OPBUF over TABLE; OVERFLOW, then NO_TABLE, leave RESULT stored
and not valid. -/
def Obligations.ComputeCompletes : Prop :=
  encode .compute = 0x00000003#32 ∧
  ∀ s : State,
    (s.status.ovf = false → s.status.tableValid = true →
      ∃ t, exec .compute s = .next t ∧ t.result = crc s.opbuf s.table ∧ t.status.resultValid = true ∧
        t.resultDefined = true ∧ EndedWith .none s t ∧ t.arg = s.arg ∧ SameMask s t ∧ SameTable s t ∧
        SameSurroundings s t) ∧
    (∀ code, (code = .overflow ∧ s.status.ovf = true) ∨
        (code = .noTable ∧ s.status.ovf = false ∧ s.status.tableValid = false) →
      ∃ t, exec .compute s = .next t ∧ EndedWith code s t ∧ t.status.resultValid = false ∧ t.result = s.result ∧
        t.resultDefined = s.resultDefined ∧ t.arg = s.arg ∧ SameMask s t ∧ SameTable s t ∧ SameSurroundings s t)

/-- 41_engine.md R85: CRC32 completes with the table of ARG and the checksum over it, whatever TABLE held; with OVF it does
neither. -/
def Obligations.Crc32Completes : Prop :=
  encode .crc32 = 0x00000004#32 ∧
  ∀ s : State,
    (s.status.ovf = false →
      ∃ t, exec .crc32 s = .next t ∧ TableOf s.arg t ∧ t.result = crc s.opbuf (buildTable s.arg) ∧
        t.status.resultValid = true ∧ t.resultDefined = true ∧ EndedWith .none s t ∧ t.arg = s.arg ∧ SameMask s t ∧
        SameSurroundings s t) ∧
    (s.status.ovf = true →
      ∃ t, exec .crc32 s = .next t ∧ EndedWith .overflow s t ∧ t.status.resultValid = false ∧ t.result = s.result ∧
        t.resultDefined = s.resultDefined ∧ t.arg = s.arg ∧ SameMask s t ∧ SameTable s t ∧ SameSurroundings s t)

/-- 41_engine.md R86: CRC32.M completes with the table of MASK and the checksum over it; OVERFLOW, then NO_POLY, do
neither. -/
def Obligations.Crc32MCompletes : Prop :=
  encode .crc32M = 0x00000014#32 ∧
  ∀ s : State,
    (s.status.ovf = false → s.status.parseOk = true →
      ∃ t, exec .crc32M s = .next t ∧ TableOf s.mask t ∧ t.result = crc s.opbuf (buildTable s.mask) ∧
        t.status.resultValid = true ∧ t.resultDefined = true ∧ EndedWith .none s t ∧ t.arg = s.arg ∧ SameMask s t ∧
        SameSurroundings s t) ∧
    (∀ code, (code = .overflow ∧ s.status.ovf = true) ∨
        (code = .noPoly ∧ s.status.ovf = false ∧ s.status.parseOk = false) →
      ∃ t, exec .crc32M s = .next t ∧ EndedWith code s t ∧ t.status.resultValid = false ∧ t.result = s.result ∧
        t.resultDefined = s.resultDefined ∧ t.arg = s.arg ∧ SameMask s t ∧ SameTable s t ∧ SameSurroundings s t)

/-- 41_engine.md R90: what TABLE and RESULT depend on, and nothing else of the state. -/
def Obligations.EngineIsDeterministic : Prop :=
  (∀ s s' t t' : State, s'.opbuf = s.opbuf → s'.table = s.table → exec .compute s = .next t → exec .compute s' = .next t' →
    t.status.err = .none → t'.status.err = .none → t'.result = t.result) ∧
  (∀ s s' t t' : State, s'.opbuf = s.opbuf → s'.arg = s.arg → exec .crc32 s = .next t → exec .crc32 s' = .next t' →
    t.status.err = .none → t'.status.err = .none → t'.result = t.result ∧ t'.table = t.table) ∧
  (∀ s s' t t' : State, s'.opbuf = s.opbuf → s'.mask = s.mask → exec .crc32M s = .next t → exec .crc32M s' = .next t' →
    t.status.err = .none → t'.status.err = .none → t'.result = t.result ∧ t'.table = t.table) ∧
  (∀ s s' t t' : State, s'.arg = s.arg → exec .build s = .next t → exec .build s' = .next t' → t'.table = t.table) ∧
  (∀ s s' t t' : State, s'.mask = s.mask → exec .buildM s = .next t → exec .buildM s' = .next t' →
    t.status.err = .none → t'.status.err = .none → t'.table = t.table)

/-- 41_engine.md R92: a build with the mask TABLE was built from leaves TABLE, TABLE_POLY and TABLE_VALID unchanged. The
premise `Inv` is what every step keeps (`StepKeepsInvariant`). -/
def Obligations.RebuildChangesNothing : Prop :=
  ∀ (s t : State) (i : Instr), Inv s → s.status.tableValid = true →
    (((i = .build ∨ i = .crc32) ∧ s.arg = s.tablePoly) ∨ ((i = .buildM ∨ i = .crc32M) ∧ s.mask = s.tablePoly)) →
    exec i s = .next t → SameTable s t

/-! ## Errors -/

/-- Every command answers a next state, from every state: no command hangs, faults or is refused (20_memory.md R44,
60_exceptions.md R99). -/
def Obligations.EveryCommandCompletes : Prop :=
  ∀ (i : Instr) (s : State), ∃ t, exec i s = .next t ∧ t.opbuf = [] ∧ t.status.ovf = false

/-- 60_exceptions.md R96: the codes each command can end with. -/
def Obligations.OutcomeCodes : Prop :=
  ∀ s t : State,
    (exec .parse s = .next t → t.status.err ∈ [.none, .noX, .zeroMask, .overflow]) ∧
    (exec .build s = .next t → t.status.err ∈ [.none]) ∧
    (exec .buildM s = .next t → t.status.err ∈ [.none, .noPoly]) ∧
    (exec .compute s = .next t → t.status.err ∈ [.none, .noTable, .overflow]) ∧
    (exec .crc32 s = .next t → t.status.err ∈ [.none, .overflow]) ∧
    (exec .crc32M s = .next t → t.status.err ∈ [.none, .noPoly, .overflow]) ∧
    (execIllegal s).status.err = .illegal

/-- 60_exceptions.md R97: the order of the checks. -/
def Obligations.ErrorPriority : Prop :=
  ∀ s : State,
    (∀ (w : Word) (why : Illegal), decode w = .illegal why →
      ∃ t, runCommand w s = .next t ∧ t.status.err = .illegal) ∧
    (s.status.ovf = true → ∀ i : Instr, i ∈ [Instr.parse, .compute, .crc32, .crc32M] →
      ∃ t, exec i s = .next t ∧ t.status.err = .overflow) ∧
    (s.status.ovf = true → ∀ i : Instr, i ∈ [Instr.build, .buildM] →
      ∃ t, exec i s = .next t ∧ t.status.err ≠ .overflow) ∧
    (s.status.parseOk = false → ∃ t, exec .buildM s = .next t ∧ t.status.err = .noPoly) ∧
    (s.status.ovf = false → s.status.parseOk = false → ∃ t, exec .crc32M s = .next t ∧ t.status.err = .noPoly) ∧
    (s.status.ovf = false → s.status.tableValid = false → ∃ t, exec .compute s = .next t ∧ t.status.err = .noTable) ∧
    (s.status.ovf = false → (strip s.opbuf).any (isX s.cfg.xCaseFold) = false →
      ∃ t, exec .parse s = .next t ∧ t.status.err = .noX) ∧
    (s.status.ovf = false → (strip s.opbuf).any (isX s.cfg.xCaseFold) = true →
      polyMask s.cfg.xCaseFold (strip s.opbuf) = 0#32 → ∃ t, exec .parse s = .next t ∧ t.status.err = .zeroMask)

/-- 60_exceptions.md R98: a command that ends with an error leaves TABLE, the stored RESULT and ARG as they were, MASK too
unless it is PARSE, and RESULT_VALID too unless it is one of the checksum commands. -/
def Obligations.ErrorsArePrecise : Prop :=
  (∀ (i : Instr) (s t : State), exec i s = .next t → t.status.err ≠ .none →
    t.arg = s.arg ∧ SameTable s t ∧ t.result = s.result ∧ t.resultDefined = s.resultDefined ∧
    (i ≠ .parse → SameMask s t) ∧ (i = .parse → t.mask = 0#32 ∧ t.status.parseOk = false) ∧
    (i = .parse ∨ i = .buildM → SameResult s t) ∧
    (i = .compute ∨ i = .crc32 ∨ i = .crc32M → t.status.resultValid = false)) ∧
  (∀ s : State, EndedWith .illegal s (execIllegal s) ∧ (execIllegal s).arg = s.arg ∧ SameTable s (execIllegal s) ∧
    SameResult s (execIllegal s) ∧ SameMask s (execIllegal s)) ∧
  (∀ (i : Instr) (s t : State), exec i s = .next t → t.opbuf = [] ∧ t.status.ovf = false)

/-- 60_exceptions.md R102: the model's record of errors. A command, legal or not, adds its code exactly if it is not NONE,
and no event takes one away. That the reset input keeps the record is the model's choice (Log 5). -/
def Obligations.EveryErrorIsRecorded : Prop :=
  (∀ (s t : State) (w : Word) (rest : List Event), s.inbox = commandWrite s.cfg w :: rest → step s = .next t →
    t.errLog = if t.status.err = .none then s.errLog else s.errLog ++ [t.status.err]) ∧
  (∀ s t : State, step s = .next t → s.errLog <+: t.errLog)

/-! ## Whole-machine rules -/

/-- The invariant of the registers holds at reset (Safety.lean; 10_state.md R16, R21, R24, R26, R30). -/
def Obligations.ResetMeetsInvariant : Prop := Inv State.reset

/-- Every step, from every state that meets the invariant, keeps it: OPBUF within its capacity, OVF only with a full buffer,
PARSE_OK exactly with a mask that is not 0, a valid table that is the table of TABLE_POLY, a valid result that is specified,
and the error in ERR on record. -/
def Obligations.StepKeepsInvariant : Prop :=
  ∀ s t : State, Inv s → step s = .next t → Inv t

/-- Which events write which register, over all steps (10_state.md, the summary table): ARG only a host write of ARG; MASK and
PARSE_OK only PARSE; TABLE, TABLE_POLY and TABLE_VALID only a building command that ends with no error; RESULT only a checksum
command that ends with no error; RESULT_VALID only a checksum command; OPBUF and OVF only a host write of DATA or a command;
ERR only a command (there any write to CMD, of a legal or an illegal word); and each of them the reset input. CMD and DATA are
no storage, and OPLEN is computed from OPBUF. -/
def Obligations.RegisterWriters : Prop :=
  ∀ s t : State, step s = .next t →
    (t.arg ≠ s.arg → ∃ e rest, s.inbox = e :: rest ∧ (e = .reset ∨ e = accessAt s.cfg (.write t.arg) 0x004)) ∧
    (¬ SameMask s t → ∃ e rest, s.inbox = e :: rest ∧ (e = .reset ∨ Commands s.cfg e .parse)) ∧
    (¬ SameTable s t → ∃ e rest, s.inbox = e :: rest ∧ (e = .reset ∨
      (t.status.err = .none ∧ ∃ i, i ∈ [Instr.build, .buildM, .crc32, .crc32M] ∧ Commands s.cfg e i))) ∧
    (t.result ≠ s.result → ∃ e rest, s.inbox = e :: rest ∧ (e = .reset ∨
      (t.status.err = .none ∧ ∃ i, i ∈ [Instr.compute, .crc32, .crc32M] ∧ Commands s.cfg e i))) ∧
    (t.status.resultValid ≠ s.status.resultValid → ∃ e rest, s.inbox = e :: rest ∧ (e = .reset ∨
      ∃ i, i ∈ [Instr.compute, .crc32, .crc32M] ∧ Commands s.cfg e i)) ∧
    (t.opbuf ≠ s.opbuf ∨ t.status.ovf ≠ s.status.ovf → ∃ e rest, s.inbox = e :: rest ∧ (e = .reset ∨
      ∃ w, e = accessAt s.cfg (.write w) 0x008 ∨ e = commandWrite s.cfg w)) ∧
    (t.status.err ≠ s.status.err → ∃ e rest, s.inbox = e :: rest ∧ (e = .reset ∨ ∃ w, e = commandWrite s.cfg w)) ∧
    t.cfg = s.cfg

/-- TABLE_VALID holds after a step exactly if the step was not the reset input and either TABLE_VALID held before or the step
was a building command that succeeded (10_state.md R24, one step at a time). -/
def Obligations.TableValidMeansBuilt : Prop :=
  ∀ s t : State, step s = .next t →
    (t.status.tableValid = true ↔
      (∀ rest, s.inbox ≠ .reset :: rest) ∧
      (s.status.tableValid = true ∨
        (t.status.err = .none ∧ ∃ e rest i, s.inbox = e :: rest ∧ i ∈ [Instr.build, .buildM, .crc32, .crc32M] ∧
          Commands s.cfg e i)))

/-- 70_reset_and_hazards.md R116: a PARSE does not rebuild TABLE: a COMPUTE after it still uses the table built earlier, and
TABLE_POLY still shows that table's mask. -/
def Obligations.TableIsNotLinkedToMask : Prop :=
  ∀ (s t : State) (data : Bytes), s.status.tableValid = true → exec .parse s = .next t →
    ∃ u, exec .compute { t with opbuf := data } = .next u ∧ u.status.err = .none ∧ u.result = crc data s.table ∧
      u.tablePoly = s.tablePoly ∧ u.mask = t.mask

/-! ## Programs -/

/-- 30_encoding.md R58: the host accesses of each statement, in order, and the offset `<reg>` stands for (20_memory.md
R33). -/
def Obligations.StatementsExpand : Prop :=
  ∀ (str : Bytes) (imm : Word) (r : Reg) (n : Byte),
    (Stmt.parse str).encoding = str.map (fun b => ⟨.write (zext32 b), 0x008⟩) ++ [⟨.write 0x00000001#32, 0x000⟩] ∧
    (Stmt.build imm).encoding = [⟨.write imm, 0x004⟩, ⟨.write 0x00000002#32, 0x000⟩] ∧
    Stmt.buildM.encoding = [⟨.write 0x00000012#32, 0x000⟩] ∧
    (Stmt.compute str).encoding = str.map (fun b => ⟨.write (zext32 b), 0x008⟩) ++ [⟨.write 0x00000003#32, 0x000⟩] ∧
    (Stmt.crc32 imm str).encoding =
      ⟨.write imm, 0x004⟩ :: (str.map (fun b => ⟨.write (zext32 b), 0x008⟩) ++ [⟨.write 0x00000004#32, 0x000⟩]) ∧
    (Stmt.crc32M str).encoding = str.map (fun b => ⟨.write (zext32 b), 0x008⟩) ++ [⟨.write 0x00000014#32, 0x000⟩] ∧
    (Stmt.wr r imm).encoding = [⟨.write imm, r.offset⟩] ∧ (Stmt.rd r).encoding = [⟨.read, r.offset⟩] ∧
    Reg.cmd.offset = 0x000 ∧ Reg.arg.offset = 0x004 ∧ Reg.data.offset = 0x008 ∧ Reg.status.offset = 0x00C ∧
    Reg.mask.offset = 0x010 ∧ Reg.result.offset = 0x014 ∧ Reg.tablePoly.offset = 0x018 ∧ Reg.oplen.offset = 0x01C ∧
    (Reg.table n).offset = 0x400 + 4 * n.toNat

/-- 30_encoding.md R60: the expansions of the pseudo-instructions; that the CRC32.M of a PCRC whose parse failed, with no
data byte dropped, fails with NO_POLY and computes nothing; that CORE has no no-op command, since each write to CMD, of a legal
word or not, empties OPBUF; and that so does `.WORD` of an illegal word. -/
def Obligations.PseudoInstructionsExpand : Prop :=
  (∀ (str poly : Bytes) (imm : Word),
    (Stmt.crcstd str).encoding = (Stmt.crc32 0xEDB88320#32 str).encoding ∧
    (Stmt.pcrc poly str).encoding = (Stmt.parse poly).encoding ++ (Stmt.crc32M str).encoding ∧
    Stmt.nop.encoding = [] ∧ (Stmt.word imm).encoding = [⟨.write imm, 0x000⟩]) ∧
  (∀ (s t : State) (data : Bytes), exec .parse s = .next t → t.status.err ≠ .none →
    ∃ u, exec .crc32M { t with opbuf := data } = .next u ∧ u.status.err = .noPoly ∧ SameTable t u ∧
      u.result = t.result ∧ u.status.resultValid = false) ∧
  (∀ (s : State) (w : Word) (rest : List Event), s.inbox = commandWrite s.cfg w :: rest → s.opbuf ≠ [] →
    ∃ t, step s = .next t ∧ t.opbuf = [] ∧ ¬ SameRegisters s t) ∧
  (∀ (s : State) (imm : Word) (why : Illegal) (rest : List Event), decode imm = .illegal why →
    s.inbox = programEvents s.cfg [.word imm] ++ rest →
    ∃ t, step s = .next t ∧ t.opbuf = [] ∧ t.status.err = .illegal ∧ t.inbox = rest)
end

