-- ==== Sys2Proof/Laws/Parser.lean ====
section
/-! SUPPORT. What the parser's helpers compute, one lemma per case of each. -/
namespace Sys2Proof.Machine

@[simp] theorem strip_nil : strip [] = [] := rfl

@[simp] theorem scanLoop_nil (fold : Bool) (n : Nat) (m : Word) : scanLoop fold n m [] = m := by
  cases n <;> rfl

theorem scanLoop_other {fold : Bool} {b : Byte} (h : isX fold b = false) (n : Nat) (m : Word) (r : Bytes) :
    scanLoop fold (n + 1) m (b :: r) = scanLoop fold n m r := by
  simp [scanLoop, h]

theorem scanLoop_term {fold : Bool} {b : Byte} (h : isX fold b = true) (n : Nat) (m : Word) (r : Bytes) :
    scanLoop fold (n + 1) m (b :: r) =
      scanLoop fold n (m ||| degreeBit (termDegree ((dropCaret r).takeWhile isDigit)))
        ((dropCaret r).dropWhile isDigit) := by
  simp [scanLoop, h]

theorem dropCaret_length_le (c : Bytes) : (dropCaret c).length ≤ c.length := by
  cases c with
  | nil => simp [dropCaret]
  | cons b r => simp only [dropCaret]; split <;> simp

/-- No digit is a variable letter. -/
theorem isX_of_isDigit {b : Byte} (h : isDigit b = true) (fold : Bool) : isX fold b = false := by
  have : ∀ b : Byte, isDigit b = true → isX true b = false ∧ isX false b = false := by decide
  cases fold
  · exact (this b h).2
  · exact (this b h).1

/-- The caret is no variable letter. -/
theorem isX_caret (fold : Bool) : isX fold 0x5E#8 = false := by cases fold <;> decide

@[simp] theorem termDegree_nil : termDegree [] = 1 := rfl

theorem termDegree_of_ne_nil {ds : Bytes} (h : ds ≠ []) : termDegree ds = decimal ds := by simp [termDegree, h]

/-- One more digit at the end of a run. -/
theorem decimal_append (ds : Bytes) (b : Byte) : decimal (ds ++ [b]) = 10 * decimal ds + (b.toNat - 0x30) := by
  simp [decimal]

/-- How a parse can end. -/
theorem parsePolynomial_cases (fold : Bool) (t : Bytes) :
    ((strip t).any (isX fold) = false ∧ parsePolynomial fold t = .error .noX) ∨
    ((strip t).any (isX fold) = true ∧ polyMask fold (strip t) = 0#32 ∧ parsePolynomial fold t = .error .zeroMask) ∨
    ((strip t).any (isX fold) = true ∧ polyMask fold (strip t) ≠ 0#32 ∧
      parsePolynomial fold t = .ok (polyMask fold (strip t))) := by
  unfold parsePolynomial
  cases h : (strip t).any (isX fold)
  · simp [h]
  · by_cases hm : polyMask fold (strip t) = 0#32 <;> simp [h, hm]

/-- A mask that a parse answers is not 0. -/
theorem parsePolynomial_ok_ne_zero {fold : Bool} {t : Bytes} {m : Word} (h : parsePolynomial fold t = .ok m) :
    m ≠ 0#32 := by
  rcases parsePolynomial_cases fold t with ⟨_, h'⟩ | ⟨_, _, h'⟩ | ⟨_, hm, h'⟩
  · simp [h] at h'
  · simp [h] at h'
  · rw [h] at h'; injection h' with h'; exact h' ▸ hm

/-- A parse ends with NO_X or ZERO_MASK or a mask. -/
theorem parsePolynomial_error {fold : Bool} {t : Bytes} {e : ErrCode} (h : parsePolynomial fold t = .error e) :
    e = .noX ∨ e = .zeroMask := by
  rcases parsePolynomial_cases fold t with ⟨_, h'⟩ | ⟨_, _, h'⟩ | ⟨_, _, h'⟩ <;> simp_all

end Sys2Proof.Machine
end

