-- ==== Sys2Proof/Laws/State.lean ====
section
/-! SUPPORT. One lemma per field per update of the state, so that no later proof unfolds a record update. -/
namespace Sys2Proof.Machine

/-! `State.endCommand` -/
@[simp] theorem State.endCommand_arg (c : ErrCode) (s : State) : (s.endCommand c).arg = s.arg := rfl
@[simp] theorem State.endCommand_opbuf (c : ErrCode) (s : State) : (s.endCommand c).opbuf = [] := rfl
@[simp] theorem State.endCommand_status (c : ErrCode) (s : State) : (s.endCommand c).status = { s.status with ovf := false, err := c } := rfl
@[simp] theorem State.endCommand_mask (c : ErrCode) (s : State) : (s.endCommand c).mask = s.mask := rfl
@[simp] theorem State.endCommand_table (c : ErrCode) (s : State) : (s.endCommand c).table = s.table := rfl
@[simp] theorem State.endCommand_tablePoly (c : ErrCode) (s : State) : (s.endCommand c).tablePoly = s.tablePoly := rfl
@[simp] theorem State.endCommand_result (c : ErrCode) (s : State) : (s.endCommand c).result = s.result := rfl
@[simp] theorem State.endCommand_resultDefined (c : ErrCode) (s : State) : (s.endCommand c).resultDefined = s.resultDefined := rfl
@[simp] theorem State.endCommand_errLog (c : ErrCode) (s : State) : (s.endCommand c).errLog = logError c s.errLog := rfl
@[simp] theorem State.endCommand_cfg (c : ErrCode) (s : State) : (s.endCommand c).cfg = s.cfg := rfl
@[simp] theorem State.endCommand_inbox (c : ErrCode) (s : State) : (s.endCommand c).inbox = s.inbox := rfl
@[simp] theorem State.endCommand_replies (c : ErrCode) (s : State) : (s.endCommand c).replies = s.replies := rfl

/-! `State.raise` -/
@[simp] theorem State.raise_arg (k : FailKind) (c : ErrCode) (s : State) : (s.raise k c).arg = s.arg := by cases k <;> rfl
@[simp] theorem State.raise_opbuf (k : FailKind) (c : ErrCode) (s : State) : (s.raise k c).opbuf = [] := by
  cases k <;> rfl
@[simp] theorem State.raise_status (k : FailKind) (c : ErrCode) (s : State) : (s.raise k c).status = { s.status with
      parseOk := if k = .parse then false else s.status.parseOk
      resultValid := if k = .checksum then false else s.status.resultValid
      ovf := false
      err := c } := by cases k <;> rfl
@[simp] theorem State.raise_mask (k : FailKind) (c : ErrCode) (s : State) : (s.raise k c).mask = if k = .parse then 0#32 else s.mask := by cases k <;> rfl
@[simp] theorem State.raise_table (k : FailKind) (c : ErrCode) (s : State) : (s.raise k c).table = s.table := by cases k <;> rfl
@[simp] theorem State.raise_tablePoly (k : FailKind) (c : ErrCode) (s : State) : (s.raise k c).tablePoly = s.tablePoly := by cases k <;> rfl
@[simp] theorem State.raise_result (k : FailKind) (c : ErrCode) (s : State) : (s.raise k c).result = s.result := by cases k <;> rfl
@[simp] theorem State.raise_resultDefined (k : FailKind) (c : ErrCode) (s : State) : (s.raise k c).resultDefined = s.resultDefined := by cases k <;> rfl
@[simp] theorem State.raise_errLog (k : FailKind) (c : ErrCode) (s : State) : (s.raise k c).errLog = logError c s.errLog := by
  cases k <;> rfl
@[simp] theorem State.raise_cfg (k : FailKind) (c : ErrCode) (s : State) : (s.raise k c).cfg = s.cfg := by cases k <;> rfl
@[simp] theorem State.raise_inbox (k : FailKind) (c : ErrCode) (s : State) : (s.raise k c).inbox = s.inbox := by cases k <;> rfl
@[simp] theorem State.raise_replies (k : FailKind) (c : ErrCode) (s : State) : (s.raise k c).replies = s.replies := by cases k <;> rfl

/-! `State.writeTable` -/
@[simp] theorem State.writeTable_arg (t : Table) (p : Word) (s : State) : (s.writeTable t p).arg = s.arg := rfl
@[simp] theorem State.writeTable_opbuf (t : Table) (p : Word) (s : State) : (s.writeTable t p).opbuf = s.opbuf := rfl
@[simp] theorem State.writeTable_status (t : Table) (p : Word) (s : State) : (s.writeTable t p).status = { s.status with tableValid := true } := rfl
@[simp] theorem State.writeTable_mask (t : Table) (p : Word) (s : State) : (s.writeTable t p).mask = s.mask := rfl
@[simp] theorem State.writeTable_table (t : Table) (p : Word) (s : State) : (s.writeTable t p).table = t := rfl
@[simp] theorem State.writeTable_tablePoly (t : Table) (p : Word) (s : State) : (s.writeTable t p).tablePoly = p := rfl
@[simp] theorem State.writeTable_result (t : Table) (p : Word) (s : State) : (s.writeTable t p).result = s.result := rfl
@[simp] theorem State.writeTable_resultDefined (t : Table) (p : Word) (s : State) : (s.writeTable t p).resultDefined = s.resultDefined := rfl
@[simp] theorem State.writeTable_errLog (t : Table) (p : Word) (s : State) : (s.writeTable t p).errLog = s.errLog := rfl
@[simp] theorem State.writeTable_cfg (t : Table) (p : Word) (s : State) : (s.writeTable t p).cfg = s.cfg := rfl
@[simp] theorem State.writeTable_inbox (t : Table) (p : Word) (s : State) : (s.writeTable t p).inbox = s.inbox := rfl
@[simp] theorem State.writeTable_replies (t : Table) (p : Word) (s : State) : (s.writeTable t p).replies = s.replies := rfl

/-! `State.rebuild` -/
@[simp] theorem State.rebuild_arg (p : Word) (s : State) : (s.rebuild p).arg = s.arg := rfl
@[simp] theorem State.rebuild_opbuf (p : Word) (s : State) : (s.rebuild p).opbuf = s.opbuf := rfl
@[simp] theorem State.rebuild_status (p : Word) (s : State) : (s.rebuild p).status = { s.status with tableValid := true } := rfl
@[simp] theorem State.rebuild_mask (p : Word) (s : State) : (s.rebuild p).mask = s.mask := rfl
@[simp] theorem State.rebuild_table (p : Word) (s : State) : (s.rebuild p).table = buildTable p := rfl
@[simp] theorem State.rebuild_tablePoly (p : Word) (s : State) : (s.rebuild p).tablePoly = p := rfl
@[simp] theorem State.rebuild_result (p : Word) (s : State) : (s.rebuild p).result = s.result := rfl
@[simp] theorem State.rebuild_resultDefined (p : Word) (s : State) : (s.rebuild p).resultDefined = s.resultDefined := rfl
@[simp] theorem State.rebuild_errLog (p : Word) (s : State) : (s.rebuild p).errLog = s.errLog := rfl
@[simp] theorem State.rebuild_cfg (p : Word) (s : State) : (s.rebuild p).cfg = s.cfg := rfl
@[simp] theorem State.rebuild_inbox (p : Word) (s : State) : (s.rebuild p).inbox = s.inbox := rfl
@[simp] theorem State.rebuild_replies (p : Word) (s : State) : (s.rebuild p).replies = s.replies := rfl

/-! `State.writeResult` -/
@[simp] theorem State.writeResult_arg (r : Word) (s : State) : (s.writeResult r).arg = s.arg := rfl
@[simp] theorem State.writeResult_opbuf (r : Word) (s : State) : (s.writeResult r).opbuf = s.opbuf := rfl
@[simp] theorem State.writeResult_status (r : Word) (s : State) : (s.writeResult r).status = { s.status with resultValid := true } := rfl
@[simp] theorem State.writeResult_mask (r : Word) (s : State) : (s.writeResult r).mask = s.mask := rfl
@[simp] theorem State.writeResult_table (r : Word) (s : State) : (s.writeResult r).table = s.table := rfl
@[simp] theorem State.writeResult_tablePoly (r : Word) (s : State) : (s.writeResult r).tablePoly = s.tablePoly := rfl
@[simp] theorem State.writeResult_result (r : Word) (s : State) : (s.writeResult r).result = r := rfl
@[simp] theorem State.writeResult_resultDefined (r : Word) (s : State) : (s.writeResult r).resultDefined = true := rfl
@[simp] theorem State.writeResult_errLog (r : Word) (s : State) : (s.writeResult r).errLog = s.errLog := rfl
@[simp] theorem State.writeResult_cfg (r : Word) (s : State) : (s.writeResult r).cfg = s.cfg := rfl
@[simp] theorem State.writeResult_inbox (r : Word) (s : State) : (s.writeResult r).inbox = s.inbox := rfl
@[simp] theorem State.writeResult_replies (r : Word) (s : State) : (s.writeResult r).replies = s.replies := rfl

/-! `State.checksum` -/
@[simp] theorem State.checksum_arg (b : Bytes) (s : State) : (s.checksum b).arg = s.arg := rfl
@[simp] theorem State.checksum_opbuf (b : Bytes) (s : State) : (s.checksum b).opbuf = s.opbuf := rfl
@[simp] theorem State.checksum_status (b : Bytes) (s : State) : (s.checksum b).status = { s.status with resultValid := true } := rfl
@[simp] theorem State.checksum_mask (b : Bytes) (s : State) : (s.checksum b).mask = s.mask := rfl
@[simp] theorem State.checksum_table (b : Bytes) (s : State) : (s.checksum b).table = s.table := rfl
@[simp] theorem State.checksum_tablePoly (b : Bytes) (s : State) : (s.checksum b).tablePoly = s.tablePoly := rfl
@[simp] theorem State.checksum_result (b : Bytes) (s : State) : (s.checksum b).result = crc b s.table := rfl
@[simp] theorem State.checksum_resultDefined (b : Bytes) (s : State) : (s.checksum b).resultDefined = true := rfl
@[simp] theorem State.checksum_errLog (b : Bytes) (s : State) : (s.checksum b).errLog = s.errLog := rfl
@[simp] theorem State.checksum_cfg (b : Bytes) (s : State) : (s.checksum b).cfg = s.cfg := rfl
@[simp] theorem State.checksum_inbox (b : Bytes) (s : State) : (s.checksum b).inbox = s.inbox := rfl
@[simp] theorem State.checksum_replies (b : Bytes) (s : State) : (s.checksum b).replies = s.replies := rfl

/-! `State.writeMask` -/
@[simp] theorem State.writeMask_arg (m : Word) (s : State) : (s.writeMask m).arg = s.arg := rfl
@[simp] theorem State.writeMask_opbuf (m : Word) (s : State) : (s.writeMask m).opbuf = s.opbuf := rfl
@[simp] theorem State.writeMask_status (m : Word) (s : State) : (s.writeMask m).status = { s.status with parseOk := true } := rfl
@[simp] theorem State.writeMask_mask (m : Word) (s : State) : (s.writeMask m).mask = m := rfl
@[simp] theorem State.writeMask_table (m : Word) (s : State) : (s.writeMask m).table = s.table := rfl
@[simp] theorem State.writeMask_tablePoly (m : Word) (s : State) : (s.writeMask m).tablePoly = s.tablePoly := rfl
@[simp] theorem State.writeMask_result (m : Word) (s : State) : (s.writeMask m).result = s.result := rfl
@[simp] theorem State.writeMask_resultDefined (m : Word) (s : State) : (s.writeMask m).resultDefined = s.resultDefined := rfl
@[simp] theorem State.writeMask_errLog (m : Word) (s : State) : (s.writeMask m).errLog = s.errLog := rfl
@[simp] theorem State.writeMask_cfg (m : Word) (s : State) : (s.writeMask m).cfg = s.cfg := rfl
@[simp] theorem State.writeMask_inbox (m : Word) (s : State) : (s.writeMask m).inbox = s.inbox := rfl
@[simp] theorem State.writeMask_replies (m : Word) (s : State) : (s.writeMask m).replies = s.replies := rfl

/-! `State.writeArg` -/
@[simp] theorem State.writeArg_arg (w : Word) (s : State) : (s.writeArg w).arg = w := rfl
@[simp] theorem State.writeArg_opbuf (w : Word) (s : State) : (s.writeArg w).opbuf = s.opbuf := rfl
@[simp] theorem State.writeArg_status (w : Word) (s : State) : (s.writeArg w).status = s.status := rfl
@[simp] theorem State.writeArg_mask (w : Word) (s : State) : (s.writeArg w).mask = s.mask := rfl
@[simp] theorem State.writeArg_table (w : Word) (s : State) : (s.writeArg w).table = s.table := rfl
@[simp] theorem State.writeArg_tablePoly (w : Word) (s : State) : (s.writeArg w).tablePoly = s.tablePoly := rfl
@[simp] theorem State.writeArg_result (w : Word) (s : State) : (s.writeArg w).result = s.result := rfl
@[simp] theorem State.writeArg_resultDefined (w : Word) (s : State) : (s.writeArg w).resultDefined = s.resultDefined := rfl
@[simp] theorem State.writeArg_errLog (w : Word) (s : State) : (s.writeArg w).errLog = s.errLog := rfl
@[simp] theorem State.writeArg_cfg (w : Word) (s : State) : (s.writeArg w).cfg = s.cfg := rfl
@[simp] theorem State.writeArg_inbox (w : Word) (s : State) : (s.writeArg w).inbox = s.inbox := rfl
@[simp] theorem State.writeArg_replies (w : Word) (s : State) : (s.writeArg w).replies = s.replies := rfl

/-! `State.answer` -/
@[simp] theorem State.answer_arg (r : Reply) (s : State) : (s.answer r).arg = s.arg := rfl
@[simp] theorem State.answer_opbuf (r : Reply) (s : State) : (s.answer r).opbuf = s.opbuf := rfl
@[simp] theorem State.answer_status (r : Reply) (s : State) : (s.answer r).status = s.status := rfl
@[simp] theorem State.answer_mask (r : Reply) (s : State) : (s.answer r).mask = s.mask := rfl
@[simp] theorem State.answer_table (r : Reply) (s : State) : (s.answer r).table = s.table := rfl
@[simp] theorem State.answer_tablePoly (r : Reply) (s : State) : (s.answer r).tablePoly = s.tablePoly := rfl
@[simp] theorem State.answer_result (r : Reply) (s : State) : (s.answer r).result = s.result := rfl
@[simp] theorem State.answer_resultDefined (r : Reply) (s : State) : (s.answer r).resultDefined = s.resultDefined := rfl
@[simp] theorem State.answer_errLog (r : Reply) (s : State) : (s.answer r).errLog = s.errLog := rfl
@[simp] theorem State.answer_cfg (r : Reply) (s : State) : (s.answer r).cfg = s.cfg := rfl
@[simp] theorem State.answer_inbox (r : Reply) (s : State) : (s.answer r).inbox = s.inbox := rfl
@[simp] theorem State.answer_replies (r : Reply) (s : State) : (s.answer r).replies = s.replies ++ [r] := rfl

/-! `State.resetCore` -/
@[simp] theorem State.resetCore_arg (s : State) : (s.resetCore).arg = 0#32 := rfl
@[simp] theorem State.resetCore_opbuf (s : State) : (s.resetCore).opbuf = [] := rfl
@[simp] theorem State.resetCore_status (s : State) : (s.resetCore).status = Status.reset := rfl
@[simp] theorem State.resetCore_mask (s : State) : (s.resetCore).mask = 0#32 := rfl
@[simp] theorem State.resetCore_table (s : State) : (s.resetCore).table = Vector.replicate 256 0#32 := rfl
@[simp] theorem State.resetCore_tablePoly (s : State) : (s.resetCore).tablePoly = 0#32 := rfl
@[simp] theorem State.resetCore_result (s : State) : (s.resetCore).result = 0#32 := rfl
@[simp] theorem State.resetCore_resultDefined (s : State) : (s.resetCore).resultDefined = false := rfl
@[simp] theorem State.resetCore_errLog (s : State) : (s.resetCore).errLog = s.errLog := rfl
@[simp] theorem State.resetCore_cfg (s : State) : (s.resetCore).cfg = s.cfg := rfl
@[simp] theorem State.resetCore_inbox (s : State) : (s.resetCore).inbox = s.inbox := rfl
@[simp] theorem State.resetCore_replies (s : State) : (s.resetCore).replies = s.replies := rfl

/-! `State.pushByte` -/
@[simp] theorem State.pushByte_arg (b : Byte) (s : State) : (s.pushByte b).arg = s.arg := by
  unfold State.pushByte; split <;> rfl
@[simp] theorem State.pushByte_opbuf (b : Byte) (s : State) : (s.pushByte b).opbuf = if opbufFull s.cfg s.opbuf.length then s.opbuf else s.opbuf ++ [b] := by
  unfold State.pushByte; split <;> simp_all
@[simp] theorem State.pushByte_status (b : Byte) (s : State) : (s.pushByte b).status = { s.status with ovf := opbufFull s.cfg s.opbuf.length || s.status.ovf } := by
  unfold State.pushByte; split <;> simp_all
@[simp] theorem State.pushByte_mask (b : Byte) (s : State) : (s.pushByte b).mask = s.mask := by
  unfold State.pushByte; split <;> rfl
@[simp] theorem State.pushByte_table (b : Byte) (s : State) : (s.pushByte b).table = s.table := by
  unfold State.pushByte; split <;> rfl
@[simp] theorem State.pushByte_tablePoly (b : Byte) (s : State) : (s.pushByte b).tablePoly = s.tablePoly := by
  unfold State.pushByte; split <;> rfl
@[simp] theorem State.pushByte_result (b : Byte) (s : State) : (s.pushByte b).result = s.result := by
  unfold State.pushByte; split <;> rfl
@[simp] theorem State.pushByte_resultDefined (b : Byte) (s : State) : (s.pushByte b).resultDefined = s.resultDefined := by
  unfold State.pushByte; split <;> rfl
@[simp] theorem State.pushByte_errLog (b : Byte) (s : State) : (s.pushByte b).errLog = s.errLog := by
  unfold State.pushByte; split <;> rfl
@[simp] theorem State.pushByte_cfg (b : Byte) (s : State) : (s.pushByte b).cfg = s.cfg := by
  unfold State.pushByte; split <;> rfl
@[simp] theorem State.pushByte_inbox (b : Byte) (s : State) : (s.pushByte b).inbox = s.inbox := by
  unfold State.pushByte; split <;> rfl
@[simp] theorem State.pushByte_replies (b : Byte) (s : State) : (s.pushByte b).replies = s.replies := by
  unfold State.pushByte; split <;> rfl

end Sys2Proof.Machine
end

