-- ==== Sys2Proof/Laws/Commands.lean ====
section
/-! SUPPORT. One lemma per operand and per command that says everything it can do, failures included. -/
namespace Sys2Proof.Machine

theorem bytesOperand_of_ovf {s : State} (h : s.status.ovf = true) : bytesOperand s = .error .overflow := by
  simp [bytesOperand, h]

theorem bytesOperand_of_not_ovf {s : State} (h : s.status.ovf = false) : bytesOperand s = .ok s.opbuf := by
  simp [bytesOperand, h]

theorem maskOperand_of_ok {s : State} (h : s.status.parseOk = true) : maskOperand s = .ok s.mask := by
  simp [maskOperand, h]

theorem maskOperand_of_not_ok {s : State} (h : s.status.parseOk = false) : maskOperand s = .error .noPoly := by
  simp [maskOperand, h]

theorem tableOperand_of_valid {s : State} (h : s.status.tableValid = true) : tableOperand s = .ok s.table := by
  simp [tableOperand, h]

theorem tableOperand_of_not_valid {s : State} (h : s.status.tableValid = false) :
    tableOperand s = .error .noTable := by
  simp [tableOperand, h]

/-- The states PARSE can leave. -/
theorem exec_parse_cases {s t : State} (h : exec .parse s = .next t) :
    (s.status.ovf = true ∧ t = s.raise .parse .overflow) ∨
    (s.status.ovf = false ∧ ∃ e, parsePolynomial s.cfg.xCaseFold s.opbuf = .error e ∧ t = s.raise .parse e) ∨
    (s.status.ovf = false ∧ ∃ m, parsePolynomial s.cfg.xCaseFold s.opbuf = .ok m ∧
      t = (s.writeMask m).endCommand .none) := by
  simp only [exec, execParse, parseOutcome] at h
  cases ho : s.status.ovf
  · rw [bytesOperand_of_not_ovf ho] at h
    cases hp : parsePolynomial s.cfg.xCaseFold s.opbuf <;> simp_all
  · rw [bytesOperand_of_ovf ho] at h
    simp_all

/-- The state BUILD leaves. -/
theorem exec_build_cases {s t : State} (h : exec .build s = .next t) : t = (s.rebuild s.arg).endCommand .none := by
  simp only [exec, execBuild, argOperand, Host.Outcome.next.injEq] at h
  exact h.symm

/-- The states BUILD.M can leave. -/
theorem exec_buildM_cases {s t : State} (h : exec .buildM s = .next t) :
    (s.status.parseOk = false ∧ t = s.raise .build .noPoly) ∨
    (s.status.parseOk = true ∧ t = (s.rebuild s.mask).endCommand .none) := by
  simp only [exec, execBuildM] at h
  cases hp : s.status.parseOk
  · rw [maskOperand_of_not_ok hp] at h
    simp_all
  · rw [maskOperand_of_ok hp] at h
    simp_all

/-- The states COMPUTE can leave. -/
theorem exec_compute_cases {s t : State} (h : exec .compute s = .next t) :
    (s.status.ovf = true ∧ t = s.raise .checksum .overflow) ∨
    (s.status.ovf = false ∧ s.status.tableValid = false ∧ t = s.raise .checksum .noTable) ∨
    (s.status.ovf = false ∧ s.status.tableValid = true ∧ t = (s.checksum s.opbuf).endCommand .none) := by
  simp only [exec, execCompute] at h
  cases ho : s.status.ovf
  · rw [bytesOperand_of_not_ovf ho] at h
    cases hv : s.status.tableValid
    · rw [tableOperand_of_not_valid hv] at h
      simp_all
    · rw [tableOperand_of_valid hv] at h
      simp_all [State.checksum]
  · rw [bytesOperand_of_ovf ho] at h
    simp_all

/-- The states CRC32 can leave. -/
theorem exec_crc32_cases {s t : State} (h : exec .crc32 s = .next t) :
    (s.status.ovf = true ∧ t = s.raise .checksum .overflow) ∨
    (s.status.ovf = false ∧ t = ((s.rebuild s.arg).checksum s.opbuf).endCommand .none) := by
  simp only [exec, execCrc32, argOperand] at h
  cases ho : s.status.ovf
  · rw [bytesOperand_of_not_ovf ho] at h
    simp_all
  · rw [bytesOperand_of_ovf ho] at h
    simp_all

/-- The states CRC32.M can leave. -/
theorem exec_crc32M_cases {s t : State} (h : exec .crc32M s = .next t) :
    (s.status.ovf = true ∧ t = s.raise .checksum .overflow) ∨
    (s.status.ovf = false ∧ s.status.parseOk = false ∧ t = s.raise .checksum .noPoly) ∨
    (s.status.ovf = false ∧ s.status.parseOk = true ∧
      t = ((s.rebuild s.mask).checksum s.opbuf).endCommand .none) := by
  simp only [exec, execCrc32M] at h
  cases ho : s.status.ovf
  · rw [bytesOperand_of_not_ovf ho] at h
    cases hp : s.status.parseOk
    · rw [maskOperand_of_not_ok hp] at h
      simp_all
    · rw [maskOperand_of_ok hp] at h
      simp_all
  · rw [bytesOperand_of_ovf ho] at h
    simp_all

end Sys2Proof.Machine
end

