-- ==== Sys2Proof/Laws/Engine.lean ====
section
/-! SUPPORT. What the engine's functions compute: one lemma each, cited instead of unfolding them. -/
namespace Sys2Proof.Machine

@[simp] theorem memRead_buildTable (p : Word) (i : Byte) : memRead (buildTable p) i = tableEntry i p := by
  simp [memRead, buildTable]

/-- Two tables with the same 256 entries are the same table. -/
theorem table_ext_memRead {t u : Table} (h : ∀ i : Byte, memRead t i = memRead u i) : t = u := by
  refine Vector.ext fun k hk => ?_
  simpa [memRead, Nat.mod_eq_of_lt hk] using h (BitVec.ofNat 8 k)

@[simp] theorem shiftSteps_zero (p v : Word) : shiftSteps p 0 v = v := rfl

theorem shiftSteps_succ (p v : Word) (n : Nat) : shiftSteps p (n + 1) v = shiftSteps p n (shiftStep p v) := rfl

/-- A shift by `m` and then by `n` more. -/
theorem shiftSteps_add (p v : Word) (m n : Nat) : shiftSteps p (m + n) v = shiftSteps p n (shiftSteps p m v) := by
  induction m generalizing v with
  | zero => simp
  | succ m ih => rw [Nat.succ_add, shiftSteps_succ, ih, shiftSteps_succ]

theorem shiftStep_of_even {p v : Word} (h : v.getLsbD 0 = false) : shiftStep p v = v >>> 1 := by
  rw [shiftStep, h]; rfl

theorem shiftStep_of_odd {p v : Word} (h : v.getLsbD 0 = true) : shiftStep p v = (v >>> 1) ^^^ p := by
  rw [shiftStep, h]; rfl

/-- The index of a step is the low byte of the accumulator combined with the data byte. -/
theorem crcIndex_eq (acc : Word) (b : Byte) : crcIndex acc b = lowByte acc ^^^ b := by
  ext i hi
  simp only [crcIndex, lowByte, zext32, BitVec.getElem_setWidth, BitVec.getLsbD_and, BitVec.getLsbD_xor,
    BitVec.getLsbD_setWidth, BitVec.getElem_xor]
  interval_cases i <;> simp

end Sys2Proof.Machine
end

