-- ==== Sys2Proof/Laws/PerInstr.lean ====
section
/-! SUPPORT. Facts of every command, one lemma per constructor of Instr. -/

/-- The command's fields pass the checks of a legal word (30_encoding.md R52, R56). -/
def Sys2Proof.Laws.FieldsWellFormed.Statement (i : Sys2Proof.Instr) : Prop :=
  i.fields.wellFormed = true ∧ i.wellFormed = true

namespace Sys2Proof.Laws.FieldsWellFormed

theorem parse : Statement .parse := ⟨by decide, rfl⟩

theorem build : Statement .build := ⟨by decide, rfl⟩

theorem buildM : Statement .buildM := ⟨by decide, rfl⟩

theorem compute : Statement .compute := ⟨by decide, rfl⟩

theorem crc32 : Statement .crc32 := ⟨by decide, rfl⟩

theorem crc32M : Statement .crc32M := ⟨by decide, rfl⟩

end Sys2Proof.Laws.FieldsWellFormed
end

