-- ==== Sys2Proof/Laws/Step.lean ====
section
/-! SUPPORT. What the port and the step can do. -/
namespace Sys2Proof.Machine

/-- An access at an offset of the window has that offset, if it is aligned (20_memory.md R41). -/
theorem windowOffset_accessAt {off : Nat} (c : Config) (op : HostOp) (h4 : off % 4 = 0) (h : off < 0x800) :
    windowOffset c ⟨op, 32, c.base + off⟩ = .ok off := by
  have h1 : ¬ (c.base + off < c.base ∨ c.base + Config.windowBytes ≤ c.base + off) := by
    simp [Config.windowBytes]; omega
  rw [windowOffset, if_neg (by simp), if_neg h1, if_neg (by simp [h4])]
  simp

/-- The accesses that have a meaning, and where they are. -/
theorem windowOffset_ok {c : Config} {a : Access} {off : Nat} (h : windowOffset c a = .ok off) :
    a.width = 32 ∧ a.addr = c.base + off ∧ off % 4 = 0 ∧ off < 0x800 := by
  unfold windowOffset at h
  split at h
  · simp at h
  · split at h
    · simp at h
    · split at h
      · simp at h
      · simp only [Config.windowBytes, Except.ok.injEq] at *
        omega

/-- The register of each offset, by its name (20_memory.md R33). -/
theorem regAt_table (i : Byte) : regAt (0x400 + 4 * i.toNat) = some (.table i) := by
  have hi := i.isLt
  have h1 : (0x400 + 4 * i.toNat - 0x400) / 4 = i.toNat := by omega
  simp only [regAt, h1, BitVec.ofNat_toNat, BitVec.setWidth_eq]
  repeat' rw [if_neg (by omega)]

theorem step_of_empty {s : State} (h : s.inbox = []) : step s = .next s := by
  simp [step, takeNext, h]

theorem step_of_cons {s : State} {e : Event} {rest : List Event} (h : s.inbox = e :: rest) :
    step s = takeEvent e { s with inbox := rest } := by
  simp [step, takeNext, h]

/-- A run goes on from the state its first step leaves. -/
theorem run_succ_of_next {s t : State} {k : Nat} (h : step s = .next t) :
    Sys2Proof.core.run (k + 1) s = Sys2Proof.core.run k t := by
  have h' : Sys2Proof.core.step s = .next t := h
  simp only [Host.Core.run, h']

/-- What a read answers does not depend on the events still to come, nor on the replies so far. -/
theorem hostRead_congr {off : Nat} {s t : State} (h1 : t.arg = s.arg) (h2 : t.opbuf = s.opbuf) (h3 : t.status = s.status)
    (h4 : t.mask = s.mask) (h5 : t.table = s.table) (h6 : t.tablePoly = s.tablePoly) (h7 : t.result = s.result)
    (h8 : t.resultDefined = s.resultDefined) : hostRead off t = hostRead off s := by
  unfold hostRead
  rcases regAt off with _ | r
  · rfl
  · cases r <;> simp [readReg, oplen, h1, h2, h3, h4, h5, h6, h7, h8]

/-- An access at an aligned offset of the window does what the interface says there. -/
theorem takeEvent_accessAt {off : Nat} (op : HostOp) (s : State) (h4 : off % 4 = 0) (h : off < 0x800) :
    takeEvent (accessAt s.cfg op off) s =
      match op with
      | .read    => .next (s.answer (hostRead off s))
      | .write w => hostWrite off w s := by
  cases op <;> simp only [takeEvent, accessAt, hostAccess, windowOffset_accessAt s.cfg _ h4 h]

/-- A write of a word to CMD runs it. -/
theorem takeEvent_commandWrite (w : Word) (s : State) : takeEvent (commandWrite s.cfg w) s = runCommand w s := by
  rw [commandWrite, takeEvent_accessAt _ _ (by decide) (by decide)]
  rfl

/-- What one write can do: run a command, write ARG, push a byte, or nothing. -/
theorem hostWrite_cases (off : Nat) (w : Word) (s : State) :
    (regAt off = some .cmd ∧ hostWrite off w s = runCommand w s) ∨
    (regAt off = some .arg ∧ hostWrite off w s = .next (s.writeArg w)) ∨
    (regAt off = some .data ∧ hostWrite off w s = .next (s.pushByte (lowByte w))) ∨
    (regAt off ≠ some .cmd ∧ regAt off ≠ some .arg ∧ regAt off ≠ some .data ∧ hostWrite off w s = .next s) := by
  unfold hostWrite
  rcases regAt off with _ | r
  · simp
  · cases r <;> simp

/-- What a command word can do: run the command it encodes, or have the effect of an illegal word. -/
theorem runCommand_cases (w : Word) (s : State) :
    (∃ i, decode w = .instr i ∧ runCommand w s = exec i s) ∨
    (∃ why, decode w = .illegal why ∧ runCommand w s = .next (s.raise .illegal .illegal)) := by
  unfold runCommand
  cases h : decode w with
  | instr i => exact .inl ⟨i, rfl, rfl⟩
  | illegal why => exact .inr ⟨why, rfl, rfl⟩

/-- Only the offset of CMD holds CMD, of ARG, ARG, and of DATA, DATA (20_memory.md R33). -/
theorem regAt_eq_cmd {off : Nat} (h : regAt off = some .cmd) : off = 0x000 := by
  unfold regAt at h
  repeat' split at h
  all_goals simp_all

theorem regAt_eq_arg {off : Nat} (h : regAt off = some .arg) : off = 0x004 := by
  unfold regAt at h
  repeat' split at h
  all_goals simp_all

theorem regAt_eq_data {off : Nat} (h : regAt off = some .data) : off = 0x008 := by
  unfold regAt at h
  repeat' split at h
  all_goals simp_all

/-- Everything a step to a next state can be: idle, the reset input, a host read, a command, an illegal word, a write of
ARG, a write of DATA, or a write that is ignored. -/
theorem step_next_cases {s t : State} (h : step s = .next t) :
    (s.inbox = [] ∧ t = s) ∨
    ∃ e rest, s.inbox = e :: rest ∧
      ((e = .reset ∧ t = State.resetCore { s with inbox := rest }) ∨
       (∃ off, off % 4 = 0 ∧ off < 0x800 ∧ e = accessAt s.cfg .read off ∧
          t = State.answer (hostRead off { s with inbox := rest }) { s with inbox := rest }) ∨
       (∃ w i, decode w = .instr i ∧ e = commandWrite s.cfg w ∧ exec i { s with inbox := rest } = .next t) ∨
       (∃ w why, decode w = .illegal why ∧ e = commandWrite s.cfg w ∧
          t = State.raise .illegal .illegal { s with inbox := rest }) ∨
       (∃ w, e = accessAt s.cfg (.write w) 0x004 ∧ t = State.writeArg w { s with inbox := rest }) ∨
       (∃ w, e = accessAt s.cfg (.write w) 0x008 ∧ t = State.pushByte (lowByte w) { s with inbox := rest }) ∨
       (∃ w off, off % 4 = 0 ∧ off < 0x800 ∧ e = accessAt s.cfg (.write w) off ∧ 0x008 < off ∧
          t = { s with inbox := rest })) := by
  cases hin : s.inbox with
  | nil =>
    rw [step_of_empty hin, Host.Outcome.next.injEq] at h
    exact .inl ⟨rfl, h.symm⟩
  | cons e rest =>
    refine .inr ⟨e, rest, rfl, ?_⟩
    rw [step_of_cons hin] at h
    cases e with
    | reset =>
      simp only [takeEvent, Host.Outcome.next.injEq] at h
      exact .inl ⟨rfl, h.symm⟩
    | access a =>
      refine .inr ?_
      simp only [takeEvent, hostAccess] at h
      cases ho : windowOffset s.cfg a with
      | error f => simp [ho] at h
      | ok off =>
        obtain ⟨hw, ha, h4, hlt⟩ := windowOffset_ok ho
        obtain ⟨op, width, addr⟩ := a
        simp only at hw ha
        subst hw ha
        simp only [ho] at h
        cases op with
        | read =>
          simp only [Host.Outcome.next.injEq] at h
          exact .inl ⟨off, h4, hlt, rfl, h.symm⟩
        | write w =>
          refine .inr ?_
          rcases hostWrite_cases off w { s with inbox := rest } with ⟨hr, he⟩ | ⟨hr, he⟩ | ⟨hr, he⟩ | ⟨h1, h2, h3, he⟩
          · obtain rfl := regAt_eq_cmd hr
            simp only [he] at h
            rcases runCommand_cases w { s with inbox := rest } with ⟨i, hd, hx⟩ | ⟨why, hd, hx⟩
            · exact .inl ⟨w, i, hd, rfl, hx ▸ h⟩
            · rw [hx, Host.Outcome.next.injEq] at h
              exact .inr (.inl ⟨w, why, hd, rfl, h.symm⟩)
          · obtain rfl := regAt_eq_arg hr
            simp only [he, Host.Outcome.next.injEq] at h
            exact .inr (.inr (.inl ⟨w, rfl, h.symm⟩))
          · obtain rfl := regAt_eq_data hr
            simp only [he, Host.Outcome.next.injEq] at h
            exact .inr (.inr (.inr (.inl ⟨w, rfl, h.symm⟩)))
          · simp only [he, Host.Outcome.next.injEq] at h
            have h8 : 0x008 < off := by
              rcases Nat.lt_or_ge 0x008 off with h8 | h8
              · exact h8
              · have : off = 0 ∨ off = 4 ∨ off = 8 := by omega
                rcases this with rfl | rfl | rfl <;> simp [regAt] at h1 h2 h3
            exact .inr (.inr (.inr (.inr ⟨w, off, h4, hlt, rfl, h8, h.symm⟩)))

end Sys2Proof.Machine
end

