-- ==== Sys2Proof/Tests/Slice0.lean ====
section
/-! SUPPORT. Tests of the model, with expected results from spec/ (the source of each is named), and for each statement with
hypotheses a witness that meets them. -/
namespace Sys2Proof.Tests

open Sys2Proof.Machine Sys2Proof.Safety

set_option maxRecDepth 20000

/-- A field of the state an outcome leads to. -/
def after {α : Type} (o : Host.Outcome State Fault Refusal) (f : State → α) : Option α :=
  match o with
  | .next t    => some (f t)
  | .fault _   => none
  | .refused _ => none

/-- The reset state with operand bytes. -/
def holding (b : Bytes) : State := { State.reset with opbuf := b }

/-- The reset state with a dropped byte. -/
def dropped : State := { State.reset with status := { Status.reset with ovf := true } }

/-- A state in which BUILD has built the table of `p` and OPBUF holds bytes. -/
def built (p : Word) (b : Bytes) : State :=
  { State.reset with
    arg := p, opbuf := b, table := buildTable p, tablePoly := p, status := { Status.reset with tableValid := true } }

/-- A state in which PARSE has left the mask `m` and OPBUF holds bytes. -/
def parsed (m : Word) (b : Bytes) : State :=
  { State.reset with mask := m, opbuf := b, status := { Status.reset with parseOk := true } }

/-- The reset state with events to come. -/
def facing (l : List Event) : State := { State.reset with inbox := l }

/-! ## Well-formedness and decoding -/

/-- 30_encoding.md R56: a term each check refuses. -/
theorem test_wellFormed_refuses :
    CmdFields.wellFormed ⟨1#4, false, 1#27⟩ = false ∧ CmdFields.rsvdZero ⟨1#4, false, 1#27⟩ = false ∧
    CmdFields.wellFormed ⟨0#4, false, 0#27⟩ = false ∧ CmdFields.opKnown ⟨0#4, false, 0#27⟩ = false ∧
    CmdFields.wellFormed ⟨5#4, false, 0#27⟩ = false ∧ CmdFields.opKnown ⟨5#4, false, 0#27⟩ = false ∧
    CmdFields.wellFormed ⟨1#4, true, 0#27⟩ = false ∧ CmdFields.srcAllowed ⟨1#4, true, 0#27⟩ = false ∧
    CmdFields.wellFormed ⟨3#4, true, 0#27⟩ = false ∧ CmdFields.srcAllowed ⟨3#4, true, 0#27⟩ = false := by decide

/-- The words of 30_encoding.md R53, written out bit by bit: RSVD, SRC, OP. -/
theorem test_decode_parse : decode 0b000000000000000000000000000_0_0001#32 = .instr .parse := by decide

theorem test_decode_build : decode 0b000000000000000000000000000_0_0010#32 = .instr .build := by decide

theorem test_decode_buildM : decode 0b000000000000000000000000000_1_0010#32 = .instr .buildM := by decide

theorem test_decode_compute : decode 0b000000000000000000000000000_0_0011#32 = .instr .compute := by decide

theorem test_decode_crc32 : decode 0b000000000000000000000000000_0_0100#32 = .instr .crc32 := by decide

theorem test_decode_crc32M : decode 0b000000000000000000000000000_1_0100#32 = .instr .crc32M := by decide

/-- The illegal words of 95_test_vectors.md section 2.4. -/
theorem test_decode_illegal :
    [0x00000000#32, 0x00000005#32, 0x0000000F#32, 0x00000011#32, 0x00000013#32, 0x00000020#32, 0x80000004#32,
      0xFFFFFFFF#32].map decode =
    [.illegal .unknownOp, .illegal .unknownOp, .illegal .unknownOp, .illegal .srcNotAllowed, .illegal .srcNotAllowed,
      .illegal .reservedBits, .illegal .reservedBits, .illegal .reservedBits] := by decide

/-- The rows of the opcode table, through the two names the host asks with. -/
theorem test_decodeTableWord :
    [1, 2, 0x12, 3, 4, 0x14, 0x11].map (decodeTableWord 32) =
    [some .parse, some .build, some .buildM, some .compute, some .crc32, some .crc32M, none] := by decide

/-! ## The parser's and the engine's functions -/

/-- The rows of 40_parser.md R76 with X_CASE_FOLD = true that end with an error. -/
theorem test_parse_corner_errors :
    ["", "   ", "1", "x^32", "x^33", "x^3 2", "x^0032"].map (fun t => parsePolynomial true (ascii t)) =
    [.error .noX, .error .noX, .error .noX, .error .zeroMask, .error .zeroMask, .error .zeroMask, .error .zeroMask] := by
  decide

/-- The rows of 40_parser.md R76 with X_CASE_FOLD = true that end with a mask. -/
theorem test_parse_corner_masks :
    ["x", "x^", "x^1", "x^0", "x3", "xx", "x^^3", "x^-3", "x^31", "x^32+x^31", "x^32+10", "1+x^3", "x^3a+1", "max^2",
      "X^3+1", "x^99999999999999999999999+x"].map (fun t => parsePolynomial true (ascii t)) =
    [.ok 2, .ok 2, .ok 3, .ok 1, .ok 8, .ok 2, .ok 2, .ok 2, .ok 0x80000001, .ok 0x80000001, .ok 1, .ok 8, .ok 9, .ok 4,
      .ok 9, .ok 2] := by decide

/-- 40_parser.md R76, last row (90_conflicts.md C1), and its row for X_CASE_FOLD = false. -/
theorem test_parse_standard_string :
    parsePolynomial true (ascii
      "x^32 + x^26 + x^23 + x^22 + x^16 + x^12 + x^11 + x^10 + x^8 + x^7 + x^5 + x^4 + x^2 + x + 1") =
      .ok 0x04C11DB7 ∧
    parsePolynomial false (ascii "X^3+1") = .error .noX ∧ parsePolynomial false (ascii "X^3+x") = .ok 2 := by decide

/-- 95_test_vectors.md section 2.1. -/
theorem test_parse_vectors :
    ["x^16 + x^12 + x^5 + 1", "x^8+x^2+x+1", "x^31+x^30", "x^2+x^1", "x^2 + 1x", "x^10", "x^01", "x^4-x^2",
      "x^-3 + x^3", "x^999 + x^3 + 1", "x^3 - 1"].map (fun t => parsePolynomial true (ascii t)) =
    [.ok 0x00011021, .ok 0x00000107, .ok 0xC0000000, .ok 7, .ok 7, .ok 0x400, .ok 3, .ok 0x14, .ok 0xA, .ok 9, .ok 9] ∧
    parsePolynomial true [0x09, 0x78, 0x5E, 0x35, 0x0A, 0x2B, 0x0D, 0x31] = .ok 0x21 ∧
    parsePolynomial true [0x78, 0x5E, 0x33, 0x2B, 0x00, 0x31] = .ok 9 := by decide

/-- 95_test_vectors.md section 2.2, columns TABLE[0x01], [0x02], [0x10], [0x80] and [0xFF]. -/
theorem test_table_vectors :
    [0xEDB88320#32, 0x04C11DB7#32, 0x00000009#32, 0x80000000#32, 0xFFFFFFFF#32].map (fun p =>
      [0x01#8, 0x02#8, 0x10#8, 0x80#8, 0xFF#8].map (memRead (buildTable p))) =
    [[0x77073096, 0xEE0E612C, 0x1DB71064, 0xEDB88320, 0x2D02EF8D], [0x06233697, 0x05C45641, 0x01A864DB, 0x04C11DB7, 0x0560FB57],
      [0x0000000B, 0x00000005, 0x0000000E, 0x00000009, 0x00000006], [0x01000000, 0x02000000, 0x10000000, 0x80000000, 0xFF000000],
      [0x02000000, 0x04000000, 0x20000000, 0xFFFFFFFF, 0x01FFFFFF]] := by decide

/-- 41_engine.md R77: the trace of v for entry 1 of 0xEDB88320. -/
theorem test_shift_trace :
    [1, 2, 3, 4, 5, 6, 7, 8].map (fun n => shiftSteps 0xEDB88320 n 0x00000001) =
    [0xEDB88320, 0x76DC4190, 0x3B6E20C8, 0x1DB71064, 0x0EDB8832, 0x076DC419, 0xEE0E612C, 0x77073096] := by decide

/-- 95_test_vectors.md section 2.3 and 41_engine.md R93. -/
theorem test_checksum_vectors :
    ["a", "abc", "x^3+1", "The quick brown fox jumps over the lazy dog", "123456788"].map
      (fun s => crc (ascii s) (buildTable 0xEDB88320)) = [0xE8B7BE43, 0x352441C2, 0x25D18218, 0x414FA339, 0xBCF309B0] ∧
    crc (ascii "123456789") (buildTable 0x82F63B78) = 0xE3069283 ∧
    crc (ascii "123456789") (buildTable 0x04C11DB7) = 0xFC4F2BE9 ∧
    crc (ascii "123456789") (buildTable 0xFFFFFFFF) = 0x2AA0A2A4 ∧
    crc [0x00] (buildTable 0xEDB88320) = 0xD202EF8D ∧ crc [0xFF] (buildTable 0xEDB88320) = 0xFF000000 := by decide

/-! ## One step of each command -/

/-- 95_test_vectors.md P2, first command. -/
theorem test_parse_success :
    after (exec .parse (holding (ascii "x^3 - 1"))) (fun t => (t.mask, t.status.word, t.opbuf)) =
      some (0x00000009, 0x00000001, []) := by decide

/-- 95_test_vectors.md P3: PARSE "1" after a success clears MASK. -/
theorem test_parse_failure :
    after (exec .parse (parsed 9 (ascii "1"))) (fun t => (t.mask, t.status.word, t.errLog)) =
      some (0x00000000, 0x00000010, [.noX]) := by decide

/-- 41_engine.md R82, example; OVF is no error for BUILD. -/
theorem test_build :
    after (exec .build { dropped with arg := 0xEDB88320 }) (fun t => (memRead t.table 0xFF, t.tablePoly, t.status.word)) =
      some (0x2D02EF8D, 0xEDB88320, 0x00000002) := by decide

/-- 41_engine.md R83, example. -/
theorem test_buildM :
    after (exec .buildM (parsed 9 [0x61])) (fun t => (memRead t.table 0x01, t.tablePoly, t.status.word, t.opbuf)) =
      some (0x0000000B, 0x00000009, 0x00000003, []) := by decide

/-- 41_engine.md R83: NO_POLY after reset. -/
theorem test_buildM_noPoly :
    after (exec .buildM State.reset) (fun t => t.status.word) = some 0x00000030 := by decide

/-- 41_engine.md R84, example. -/
theorem test_compute :
    after (exec .compute (built 0xEDB88320 (ascii "123456789"))) (fun t => (t.result, t.status.word)) =
      some (0xCBF43926, 0x00000006) := by decide

/-- 95_test_vectors.md P7: OVERFLOW ranks above NO_TABLE. -/
theorem test_compute_overflow :
    after (exec .compute dropped) (fun t => t.status.word) = some 0x00000050 := by decide

/-- 95_test_vectors.md P1. -/
theorem test_crc32 :
    after (exec .crc32 { holding (ascii "123456789") with arg := 0xEDB88320 })
      (fun t => (t.result, t.status.word, t.tablePoly)) = some (0xCBF43926, 0x00000006, 0xEDB88320) := by decide

/-- 41_engine.md R85: with OVF the table is not rebuilt and RESULT_VALID is cleared. -/
theorem test_crc32_overflow :
    after (exec .crc32 { dropped with status := ⟨false, false, true, true, .none⟩ })
      (fun t => t.status.word) = some 0x00000050 := by decide

/-- 95_test_vectors.md P2, second command. -/
theorem test_crc32M :
    after (exec .crc32M (parsed 9 (ascii "123456789"))) (fun t => (t.result, t.status.word)) =
      some (0xFFFFFFF6, 0x00000007) := by decide

/-- 60_exceptions.md R97, example: OVERFLOW, not NO_POLY. -/
theorem test_crc32M_priority :
    after (exec .crc32M dropped) (fun t => t.status.err) = some .overflow := by decide

/-- 30_encoding.md R56, example. -/
theorem test_illegal_word :
    after (step (({ built 0xEDB88320 [0x61] with status := ⟨false, true, true, false, .none⟩ }).withFetchWord 32 0x00000005))
      (fun t => (t.status.word, t.opbuf, t.inbox)) = some (0x00000066, [], []) := by decide

/-! ## The port -/

/-- 95_test_vectors.md section 2.5: reads of CMD, of reserved offsets, and of TABLE before any build. -/
theorem test_reads :
    [0x000, 0x008, 0x020, 0x100, 0x3FC, 0x404, 0x014, 0x018].map (fun off => hostRead off State.reset) =
      [.word 0, .word 0, .word 0, .word 0, .word 0, .unspecified, .unspecified, .unspecified] ∧
    hostRead 0x404 (built 0xEDB88320 []) = .word 0x77073096 := by decide

/-- 95_test_vectors.md section 2.5: a DATA write takes the low byte; P7: with OPBUF_MAX = 2 the third byte is dropped. -/
theorem test_data_write :
    after (step (facing [accessAt Config.initial (.write 0x00000161) 0x008])) (fun t => (t.opbuf, oplen t)) =
      some ([0x61], 1) ∧
    after (step { holding [0x61, 0x62] with
        cfg := ⟨1, some 2, true⟩, inbox := [accessAt ⟨1, some 2, true⟩ (.write 0x63) 0x008] })
      (fun t => (t.opbuf, t.status.word)) = some ([0x61, 0x62], 0x00000008) := by decide

/-- 95_test_vectors.md section 2.5: an 8-bit access and an access at 0x002 have no step; nor has one at 0x800 (R35). -/
theorem test_no_step :
    [(⟨.read, 8, 0x000⟩ : Access), ⟨.read, 32, 0x002⟩, ⟨.write 0, 32, 0x800⟩].map (windowOffset Config.initial) =
      [.error .accessWidth, .error .misaligned, .error .outsideWindow] := by decide

/-! ## Programs (95_test_vectors.md section 3) -/

/-- 30_encoding.md R62, example, and the encoding of P1 after its data. -/
theorem test_assemble_crc32 :
    assembleLine (ascii "CRC32 0xEDB88320, \"a\"   ; comment") = some [.crc32 0xEDB88320 [0x61]] ∧
    (Stmt.crc32 0xEDB88320 [0x61]).encoding = [⟨.write 0xEDB88320, 0x004⟩, ⟨.write 0x00000061, 0x008⟩, ⟨.write 0x00000004, 0x000⟩] ∧
    assembleLine (ascii "RD TABLE[1]") = some [.rd (.table 1)] ∧
    (Stmt.rd (.table 1)).encoding = [⟨.read, 0x404⟩] := by decide +kernel

/-- The other statements of 30_encoding.md R58 and R60. -/
theorem test_assemble_lines :
    assemble (["; P", "WR DATA, 0x61", "BUILD 0x00000000", "BUILD.M", "PCRC \"x\", \"1\"", ".WORD 17", "NOP"].map ascii) =
      some [.wr .data 0x61, .build 0, .buildM, .pcrc [0x78] [0x31], .word 0x11, .nop] := by decide +kernel

/-- The literals of 30_encoding.md R59; a number above 0xFFFFFFFF is none of R58's. -/
theorem test_assemble_literals :
    assembleLine (ascii "PARSE \"x\\x5E\\\"\\\\ 3\"") = some [.parse [0x78, 0x5E, 0x22, 0x5C, 0x20, 0x33]] ∧
    assembleLine (ascii "COMPUTE bytes" ++ [0x7B] ++ ascii "0, 0xFF" ++ [0x7D]) = some [.compute [0x00, 0xFF]] ∧
    assembleLine (ascii "CRC32.M bytes" ++ [0x7B, 0x7D]) = some [.crc32M []] ∧
    assembleLine (ascii "COMPUTE \"\"") = some [.compute []] ∧
    assembleLine (ascii "BUILD 0x100000000") = none := by decide +kernel

/-! ## Witnesses: for each statement with hypotheses, a state and operands that meet them, clause by clause -/

/-- A state with a mask, the table built from it and the same mask in ARG. -/
def ready (b : Bytes) : State :=
  { built 9 b with mask := 9, status := { Status.reset with parseOk := true, tableValid := true } }

theorem witness_ready_inv (b : Bytes) : Inv (ready b) := by
  constructor <;> simp [ready, built, State.reset, Status.reset, Config.initial]

theorem witness_DecodeIffEncode : Instr.crc32M.wellFormed = true := rfl

theorem witness_IllegalWords :
    (facing [commandWrite Config.initial 0x20]).inbox = commandWrite (facing []).cfg 0x20 :: [] ∧
    decode 0x20#32 = .illegal .reservedBits ∧ decode 0x5#32 = .illegal .unknownOp ∧
    decode 0x11#32 = .illegal .srcNotAllowed := by decide

theorem witness_StepRunsDecodedCommand :
    (facing [commandWrite Config.initial 0x14, .reset]).inbox = commandWrite (facing []).cfg 0x14 :: [.reset] ∧
    decode 0x14#32 = .instr .crc32M := by decide

theorem witness_PlacedWordRunsNext : decodeTableWord 32 0x14 = some .crc32M := by decide

theorem witness_StepTakesOldestEvent :
    (∃ t, step State.reset = .next t) ∧ ∃ t, step (facing [.reset, .reset]) = .next t :=
  ⟨⟨_, rfl⟩, _, rfl⟩

theorem witness_IdleKeepsState : State.reset.inbox = [] := rfl

/-- The last word of the window has a step, the first offset after it has none, nor has the word below BASE. -/
theorem witness_OnlyDefinedAccessesStep :
    (∃ t, step (facing [accessAt Config.initial .read 0x7FC]) = .next t) ∧
    (∃ f, step (facing [accessAt Config.initial .read 0x800]) = .fault f) ∧
    (∃ f, step { facing [.access ⟨.read, 32, 0x7FC⟩] with cfg := ⟨1, none, true⟩ } = .fault f) ∧
    (∃ t, step (facing [.reset]) = .next t) :=
  ⟨⟨_, rfl⟩, ⟨.outsideWindow, rfl⟩, ⟨.outsideWindow, rfl⟩, _, rfl⟩

theorem witness_HostReadAnswers :
    (facing [accessAt Config.initial .read 0x7FC]).inbox = accessAt (facing []).cfg .read 0x7FC :: [] ∧
    ({ State.reset with resultDefined := true } : State).resultDefined = true ∧
    (built 9 []).status.tableValid = true := by decide

theorem witness_ReadsHaveNoSideEffects :
    (facing [accessAt Config.initial .read 0x004, accessAt Config.initial .read 0x004]).inbox =
      accessAt (facing []).cfg .read 0x004 :: [accessAt (facing []).cfg .read 0x004] ∧
    hostRead 0x004 State.reset = .word 0 ∧ SameRegisters State.reset (facing [.reset]) ∧
    (∀ off ∈ [0x004, 0x7FC, 0x004], off % 4 = 0 ∧ off < 0x800) ∧
    (facing ([0x004, 0x7FC, 0x004].map (accessAt Config.initial .read) ++ [.reset])).inbox =
      [0x004, 0x7FC, 0x004].map (accessAt (facing []).cfg .read) ++ [.reset] := by
  unfold SameRegisters; decide

theorem witness_ReservedAndReadOnly :
    [0x000, 0x008, 0x020, 0x3FC].all (fun off => off % 4 = 0 ∧ off < 0x800 ∧
      (facing [accessAt Config.initial .read off]).inbox = [accessAt (facing []).cfg .read off]) = true ∧
    [0x00C, 0x7FC].all (fun off => off % 4 = 0 ∧ off < 0x800 ∧ 0x00C ≤ off ∧
      (facing [accessAt Config.initial (.write 1) off]).inbox = [accessAt (facing []).cfg (.write 1) off]) = true := by
  decide

theorem witness_ArgHoldsLastWrite :
    (facing [accessAt Config.initial (.write 1) 0x004]).inbox = accessAt (facing []).cfg (.write 1) 0x004 :: [] ∧
    (∃ t, exec .build State.reset = .next t) ∧ State.reset.status.ovf = false ∧ (∃ t, exec .crc32 State.reset = .next t) :=
  ⟨by decide, ⟨_, rfl⟩, rfl, _, rfl⟩

/-- One byte short of the capacity, and at it. -/
theorem witness_DataWriteAppendsOrOverflows :
    (∀ m, (⟨0, some 2, true⟩ : Config).opbufMax = some m → (holding [0x61]).opbuf.length < m) ∧
    (⟨0, some 2, true⟩ : Config).opbufMax = some 2 ∧ 2 ≤ (holding [0x61, 0x62]).opbuf.length ∧
    (facing [accessAt ⟨0, some 2, true⟩ (.write 1) 0x008]).inbox =
      accessAt ({ facing [] with cfg := ⟨0, some 2, true⟩ } : State).cfg (.write 1) 0x008 :: [] := by
  simp [holding, facing]

theorem witness_DataWritesFillBufferInOrder :
    (facing ([0x61#8, 0x62#8].map (fun b => accessAt Config.initial (.write (zext32 b)) 0x008) ++ [.reset])).inbox =
      [0x61#8, 0x62#8].map (fun b => accessAt (facing []).cfg (.write (zext32 b)) 0x008) ++ [.reset] ∧
    (∀ m, (⟨0, some 2, true⟩ : Config).opbufMax = some m → (holding []).opbuf.length + [0x61#8, 0x62#8].length ≤ m) := by
  simp [holding, facing, State.reset]

theorem witness_ResetInputClearsEverything :
    ∃ t, step { built 9 [] with inbox := [.reset] } = .next t ∧ (built 9 []).status.tableValid = true ∧
      t.status.tableValid = false := ⟨_, rfl, rfl, rfl⟩

theorem witness_UnspecifiedValuesAreNotRead :
    State.reset.status.tableValid = false ∧ State.reset.resultDefined = false ∧
    SameSpecified State.reset { State.reset with table := buildTable 9, tablePoly := 9, result := 1 } ∧
    (∃ t, exec .crc32 State.reset = .next t) ∧
    (∃ t, exec .crc32 { State.reset with table := buildTable 9, tablePoly := 9, result := 1 } = .next t) :=
  ⟨rfl, rfl, by simp [SameSpecified, SameSurroundings, State.reset, Status.reset], ⟨_, rfl⟩, _, rfl⟩

theorem witness_ParseSucceeds :
    (holding [0x78]).status.ovf = false ∧ (∃ b ∈ strip (holding [0x78]).opbuf, isX true b = true) ∧
    polyMask true (strip (holding [0x78]).opbuf) ≠ 0#32 := by decide

theorem witness_ParseFails :
    dropped.status.ovf = true ∧
    ((holding [0x31]).status.ovf = false ∧ ∀ b ∈ strip (holding [0x31]).opbuf, isX true b = false) ∧
    ((holding (ascii "x^32")).status.ovf = false ∧ (∃ b ∈ strip (holding (ascii "x^32")).opbuf, isX true b = true) ∧
      polyMask true (strip (holding (ascii "x^32")).opbuf) = 0#32) := by decide

/-- The lowest and the highest degree: bit 31 from a term, bit 0 from the heuristic. -/
theorem witness_MaskBitsAreTheTerms :
    (0 < 32 ∧ constTerm (ascii "x^31") = true ∧ (polyMask true (ascii "x^31")).getLsbD 0 = true) ∧
    (31 < 32 ∧ (polyMask true (ascii "x^31")).getLsbD 31 = true) ∧ HasTerm true (ascii "x^31") 31 :=
  ⟨by decide, by decide, [], 0x78, [0x5E], ascii "31", [], by decide, by decide, .inl rfl, by decide, by simp, by decide⟩

theorem witness_EveryLetterStartsOneTerm : isX true 0x58#8 = true ∧ isX true 0x2B#8 = false := by decide

theorem witness_ConstantTermHeuristic : constTerm (ascii "x^31") = true ∧ constTerm (ascii "1+x^3") = false := by decide

theorem witness_DecimalValueIsUnbounded :
    [0x33#8, 0x33#8] ≠ [] ∧ (∀ b ∈ [0x33#8, 0x33#8], isDigit b = true) ∧ 32 < decimal [0x33#8, 0x33#8] := by decide

theorem witness_VariableLetterCheck : (holding [0x78]).status.ovf = false := rfl

theorem witness_ParseIsDeterministic :
    (ready [0x78]).opbuf = (holding [0x78]).opbuf ∧ (ready [0x78]).status.ovf = (holding [0x78]).status.ovf ∧
    (ready [0x78]).cfg.xCaseFold = (holding [0x78]).cfg.xCaseFold ∧ (ready [0x78]).mask ≠ (holding [0x78]).mask := by decide

theorem witness_TableLaws :
    (State.reset.arg = 0#32 ∧ State.reset.status.ovf = false) ∧
    ((parsed 9 [0x61]).mask = 9#32 ∧ (parsed 9 [0x61]).status.ovf = false ∧ (parsed 9 [0x61]).status.parseOk = true) ∧
    ((built 9 [0x61]).tablePoly = 9#32 ∧ (built 9 [0x61]).status.ovf = false ∧ (built 9 [0x61]).status.tableValid = true) :=
  ⟨⟨rfl, rfl⟩, ⟨rfl, rfl, rfl⟩, rfl, rfl, rfl⟩

theorem witness_EmptyDataChecksum :
    (built 9 []).opbuf = [] ∧ (built 9 []).status.ovf = false ∧ (built 9 []).status.tableValid = true := ⟨rfl, rfl, rfl⟩

theorem witness_ZeroMaskChecksums : 4 ≤ (ascii "abcd").length := by decide

theorem witness_BuildMCompletes : (parsed 9 []).status.parseOk = true ∧ State.reset.status.parseOk = false := ⟨rfl, rfl⟩

theorem witness_ComputeCompletes :
    ((built 9 [0x61]).status.ovf = false ∧ (built 9 [0x61]).status.tableValid = true) ∧ dropped.status.ovf = true ∧
    (State.reset.status.ovf = false ∧ State.reset.status.tableValid = false) := ⟨⟨rfl, rfl⟩, rfl, rfl, rfl⟩

theorem witness_Crc32Completes : State.reset.status.ovf = false ∧ dropped.status.ovf = true := ⟨rfl, rfl⟩

theorem witness_Crc32MCompletes :
    ((parsed 9 [0x61]).status.ovf = false ∧ (parsed 9 [0x61]).status.parseOk = true) ∧ dropped.status.ovf = true ∧
    (State.reset.status.ovf = false ∧ State.reset.status.parseOk = false) := ⟨⟨rfl, rfl⟩, rfl, rfl, rfl⟩

/-- Two states that differ in PARSE_OK and MASK or in TABLE_VALID, and agree in what each command reads. -/
theorem witness_EngineIsDeterministic :
    (∃ t t', exec .compute (built 9 [0x61]) = .next t ∧ exec .compute (ready [0x61]) = .next t' ∧
      t.status.err = .none ∧ t'.status.err = .none ∧ (ready [0x61]).table = (built 9 [0x61]).table) ∧
    (∃ t t', exec .crc32 (built 9 [0x61]) = .next t ∧ exec .crc32 (ready [0x61]) = .next t' ∧
      t.status.err = .none ∧ t'.status.err = .none ∧ (ready [0x61]).arg = (built 9 [0x61]).arg) ∧
    (∃ t t', exec .crc32M (parsed 9 [0x61]) = .next t ∧ exec .crc32M (ready [0x61]) = .next t' ∧
      t.status.err = .none ∧ t'.status.err = .none ∧ (ready [0x61]).mask = (parsed 9 [0x61]).mask) ∧
    (∃ t t', exec .build (built 9 []) = .next t ∧ exec .build (ready [0x61]) = .next t') ∧
    (∃ t t', exec .buildM (parsed 9 []) = .next t ∧ exec .buildM (ready [0x61]) = .next t' ∧
      t.status.err = .none ∧ t'.status.err = .none) :=
  ⟨⟨_, _, rfl, rfl, rfl, rfl, rfl⟩, ⟨_, _, rfl, rfl, rfl, rfl, rfl⟩, ⟨_, _, rfl, rfl, rfl, rfl, rfl⟩, ⟨_, _, rfl, rfl⟩,
    ⟨_, _, rfl, rfl, rfl, rfl⟩⟩

theorem witness_RebuildChangesNothing :
    Inv (ready []) ∧ (ready []).status.tableValid = true ∧ (ready []).arg = (ready []).tablePoly ∧
    (ready []).mask = (ready []).tablePoly ∧ (∃ t, exec .build (ready []) = .next t) ∧
    (∃ t, exec .crc32M (ready []) = .next t) :=
  ⟨witness_ready_inv [], rfl, rfl, rfl, ⟨_, rfl⟩, _, rfl⟩

theorem witness_OutcomeCodes :
    (∃ t, exec .parse State.reset = .next t) ∧ (∃ t, exec .build State.reset = .next t) ∧
    (∃ t, exec .buildM State.reset = .next t) ∧ (∃ t, exec .compute State.reset = .next t) ∧
    (∃ t, exec .crc32 State.reset = .next t) ∧ (∃ t, exec .crc32M State.reset = .next t) :=
  ⟨⟨_, rfl⟩, ⟨_, rfl⟩, ⟨_, rfl⟩, ⟨_, rfl⟩, ⟨_, rfl⟩, _, rfl⟩

theorem witness_ErrorPriority :
    decode 0x0#32 = .illegal .unknownOp ∧ dropped.status.ovf = true ∧ dropped.status.parseOk = false ∧
    State.reset.status.ovf = false ∧ State.reset.status.parseOk = false ∧ State.reset.status.tableValid = false ∧
    (strip (holding [0x31]).opbuf).any (isX true) = false ∧ (strip (holding (ascii "x^32")).opbuf).any (isX true) = true ∧
    polyMask true (strip (holding (ascii "x^32")).opbuf) = 0#32 := by decide

theorem witness_ErrorsArePrecise :
    (∃ t, exec .parse (ready []) = .next t ∧ t.status.err = .noX) ∧
    (∃ t, exec .buildM (built 9 []) = .next t ∧ t.status.err = .noPoly) ∧
    (∃ t, exec .compute dropped = .next t ∧ t.status.err = .overflow) ∧
    (∃ t, exec .crc32 dropped = .next t ∧ t.status.err = .overflow) ∧
    (∃ t, exec .crc32M (built 9 []) = .next t ∧ t.status.err = .noPoly) :=
  ⟨⟨_, rfl, rfl⟩, ⟨_, rfl, rfl⟩, ⟨_, rfl, rfl⟩, ⟨_, rfl, rfl⟩, _, rfl, rfl⟩

theorem witness_EveryErrorIsRecorded :
    (∃ t, step (facing [commandWrite Config.initial 0x3]) = .next t ∧ t.status.err = .noTable) ∧
    (∃ t, step (facing [commandWrite Config.initial 0x2]) = .next t ∧ t.status.err = .none) :=
  ⟨⟨_, rfl, rfl⟩, _, rfl, rfl⟩

theorem witness_StepKeepsInvariant :
    Inv (ready [0x61]) ∧ ∃ t, step (ready [0x61]) = .next t := ⟨witness_ready_inv _, _, rfl⟩

theorem witness_RegisterWriters :
    (∃ t, step (facing [accessAt Config.initial (.write 1) 0x004]) = .next t ∧ t.arg ≠ State.reset.arg) ∧
    (∃ t, step { holding [0x78] with inbox := [commandWrite Config.initial 0x1] } = .next t ∧ t.mask ≠ 0#32) ∧
    (∃ t, step (facing [commandWrite Config.initial 0x2]) = .next t ∧ t.status.tableValid ≠ false) ∧
    (∃ t, step { built 9 [0x61] with inbox := [commandWrite Config.initial 0x3] } = .next t ∧
      t.result ≠ (built 9 [0x61]).result ∧ t.status.resultValid ≠ (built 9 [0x61]).status.resultValid) ∧
    (∃ t, step { holding [] with
        cfg := ⟨0, some 0, true⟩, inbox := [accessAt ⟨0, some 0, true⟩ (.write 1) 0x008] } = .next t ∧ t.status.ovf ≠ false) ∧
    (∃ t, step { holding [0x61] with inbox := [commandWrite Config.initial 0x5] } = .next t ∧ t.opbuf ≠ [0x61] ∧
      t.status.err ≠ .none) :=
  ⟨⟨_, rfl, by decide⟩, ⟨_, rfl, by decide⟩, ⟨_, rfl, by decide⟩, ⟨_, rfl, by decide, by decide⟩, ⟨_, rfl, by decide⟩,
    _, rfl, by decide, by decide⟩

theorem witness_TableValidMeansBuilt :
    (∃ t, step (facing [commandWrite Config.initial 0x2]) = .next t ∧ t.status.tableValid = true) ∧
    (∃ t, step { built 9 [] with inbox := [.reset] } = .next t ∧ t.status.tableValid = false) :=
  ⟨⟨_, rfl, rfl⟩, _, rfl, rfl⟩

theorem witness_TableIsNotLinkedToMask :
    (built 9 (ascii "x^2")).status.tableValid = true ∧ ∃ t, exec .parse (built 9 (ascii "x^2")) = .next t := ⟨rfl, _, rfl⟩

theorem witness_PseudoInstructionsExpand :
    (∃ t, exec .parse (holding [0x31]) = .next t ∧ t.status.err ≠ .none) ∧
    (({ holding [0x61] with inbox := [commandWrite Config.initial 0x3] } : State).inbox =
      commandWrite (holding [0x61]).cfg 0x3 :: [] ∧ (holding [0x61]).opbuf ≠ []) ∧
    decode 0x5#32 = .illegal .unknownOp ∧
    (facing (programEvents Config.initial [.word 0x5] ++ [.reset])).inbox =
      programEvents (facing []).cfg [.word 0x5] ++ [.reset] :=
  ⟨⟨_, rfl, by decide⟩, by decide, by decide, rfl⟩

end Sys2Proof.Tests
end

section
/-! SUPPORT. Words, STATUS, OPBUF and the record of errors. -/
namespace Sys2Proof

theorem lowByte_zext32 (b : Byte) : lowByte (zext32 b) = b := by
  simp [lowByte, zext32]

theorem lowByte_eq_extract (w : Word) : lowByte w = w.extractLsb' 0 8 := by
  ext i hi; simp [lowByte]

/-- A table word that decodes is a word that decodes (30_encoding.md R51, R54). -/
theorem decode_of_decodeTableWord {w : Nat} {i : Instr} (h : decodeTableWord 32 w = some i) :
    decode (BitVec.ofNat 32 (w % 2 ^ 32)) = .instr i := by
  simp only [decodeTableWord, if_pos (Nat.mod_lt w (Nat.two_pow_pos 32))] at h
  split at h
  · next j hj => rwa [← Option.some.inj h]
  · simp at h

end Sys2Proof

namespace Sys2Proof.Machine

/-- STATUS is its fields side by side (10_state.md R19), at the width the appended fields have. -/
theorem Status.getLsbD_word (t : Status) (k : Nat) :
    t.word.getLsbD k = BitVec.getLsbD (w := 25 + 3 + 1 + 1 + 1 + 1) (0#25 ++ t.err.code ++ BitVec.ofBool t.ovf ++
      BitVec.ofBool t.resultValid ++ BitVec.ofBool t.tableValid ++ BitVec.ofBool t.parseOk) k := rfl

/-- Bits 3:0 of STATUS are its flags. -/
theorem Status.flags_word (t : Status) :
    t.word.getLsbD 0 = t.parseOk ∧ t.word.getLsbD 1 = t.tableValid ∧ t.word.getLsbD 2 = t.resultValid ∧
      t.word.getLsbD 3 = t.ovf := by
  simp only [Status.getLsbD_word, BitVec.getLsbD_append]
  simp

/-- From bit 4 on STATUS is ERR, and zeros after it. -/
theorem Status.getLsbD_word_add_four (t : Status) (k : Nat) : t.word.getLsbD (4 + k) = t.err.code.getLsbD k := by
  simp only [Status.getLsbD_word, BitVec.getLsbD_append]
  simpa using BitVec.lt_of_getLsbD

/-- Bits 6:4 of STATUS are the number of ERR. -/
theorem Status.err_word (t : Status) : t.word.extractLsb' 4 3 = t.err.code := by
  ext i hi
  simp [Status.getLsbD_word_add_four, hi]

/-- Bits 31:7 of STATUS are 0. -/
theorem Status.reserved_word (t : Status) : t.word >>> 7 = 0#32 := by
  ext i hi
  have h : 7 + i = 4 + (3 + i) := by omega
  rw [BitVec.getElem_ushiftRight, h, Status.getLsbD_word_add_four, BitVec.getLsbD_of_ge _ _ (by omega)]
  simp

/-- The code of an error stands last in the record after it is logged (60_exceptions.md R102). -/
theorem getLast?_logError {c : ErrCode} (hc : c ≠ .none) (log : List ErrCode) :
    (logError c log).getLast? = some c := by simp [logError, hc]

/-- Logging adds no NONE to the record (60_exceptions.md R102). -/
theorem none_notMem_logError {c : ErrCode} {log : List ErrCode} (h : ErrCode.none ∉ log) :
    ErrCode.none ∉ logError c log := by
  by_cases hc : c = .none
  · simpa [logError, hc] using h
  · simp [logError, hc, h, Ne.symm hc]

/-- A buffer has room exactly if its length is below every capacity there is (10_state.md R16). -/
theorem opbufFull_eq_false_iff {c : Config} {n : Nat} :
    opbufFull c n = false ↔ ∀ m, c.opbufMax = some m → n < m := by
  unfold opbufFull; cases c.opbufMax <;> simp

/-- A buffer is full exactly if there is a capacity it has reached (10_state.md R16). -/
theorem opbufFull_eq_true_iff {c : Config} {n : Nat} :
    opbufFull c n = true ↔ ∃ m, c.opbufMax = some m ∧ m ≤ n := by
  unfold opbufFull; cases c.opbufMax <;> simp

/-- A byte that finds no room is dropped and sets OVF (10_state.md R16). -/
theorem State.pushByte_of_full {s : State} (h : opbufFull s.cfg s.opbuf.length = true) (b : Byte) :
    s.pushByte b = { s with status := { s.status with ovf := true } } := by simp [State.pushByte, h]

/-- A byte that finds room is appended (10_state.md R16). -/
theorem State.pushByte_of_room {s : State} (h : opbufFull s.cfg s.opbuf.length = false) (b : Byte) :
    s.pushByte b = { s with opbuf := s.opbuf ++ [b] } := by simp [State.pushByte, h]

end Sys2Proof.Machine
end

section
/-! SUPPORT. Events and reads of the port, and the steps that take a write of CMD, ARG or DATA. -/
namespace Sys2Proof.Machine

/-- Two accesses at a port are one event exactly if they are the same operation at the same offset. -/
@[simp] theorem accessAt_inj {c : Config} {op op' : HostOp} {off off' : Nat} :
    accessAt c op off = accessAt c op' off' ↔ op = op' ∧ off = off' := by
  simp [accessAt]

@[simp] theorem accessAt_ne_reset (c : Config) (op : HostOp) (off : Nat) : accessAt c op off ≠ .reset := by
  simp [accessAt]

@[simp] theorem commandWrite_ne_reset (c : Config) (w : Word) : commandWrite c w ≠ .reset := accessAt_ne_reset _ _ _

@[simp] theorem hostRead_table (i : Byte) (s : State) :
    hostRead (0x400 + 4 * i.toNat) s = specifiedWhen s.status.tableValid (memRead s.table i) := by
  simp only [hostRead, regAt_table, readReg]

@[simp] theorem hostRead_tablePoly (s : State) : hostRead 0x018 s = specifiedWhen s.status.tableValid s.tablePoly := rfl

@[simp] theorem hostRead_result (s : State) : hostRead 0x014 s = specifiedWhen s.resultDefined s.result := rfl

@[simp] theorem specifiedWhen_false (w : Word) : specifiedWhen false w = .unspecified := rfl

@[simp] theorem specifiedWhen_true (w : Word) : specifiedWhen true w = .word w := rfl

/-- What a register answers rests on its value only where that is specified (10_state.md R31). -/
theorem specifiedWhen_congr {b : Bool} {v w : Word} (h : b = true → v = w) : specifiedWhen b v = specifiedWhen b w := by
  cases b with
  | false => rfl
  | true => rw [h rfl]

/-! A step whose event is a write at CMD, ARG or DATA. -/

theorem runCommand_of_instr {w : Word} {i : Instr} (h : decode w = .instr i) (s : State) :
    runCommand w s = exec i s := by simp [runCommand, h]

/-- A write of a legal word to CMD is a step of its command (10_state.md R18). -/
theorem step_of_command {s : State} {rest : List Event} {w : Word} {i : Instr}
    (h : s.inbox = commandWrite s.cfg w :: rest) (hd : decode w = .instr i) :
    step s = exec i { s with inbox := rest } := by
  rw [step_of_cons h, ← runCommand_of_instr hd]
  exact takeEvent_commandWrite w { s with inbox := rest }

/-- A write of ARG (10_state.md R15). -/
theorem step_of_argWrite {s : State} {rest : List Event} {w : Word}
    (h : s.inbox = accessAt s.cfg (.write w) 0x004 :: rest) :
    step s = .next (State.writeArg w { s with inbox := rest }) := by
  rw [step_of_cons h]
  exact takeEvent_accessAt (.write w) { s with inbox := rest } (by decide) (by decide)

/-- A write of DATA (10_state.md R16). -/
theorem step_of_dataWrite {s : State} {rest : List Event} {w : Word}
    (h : s.inbox = accessAt s.cfg (.write w) 0x008 :: rest) :
    step s = .next (State.pushByte (lowByte w) { s with inbox := rest }) := by
  rw [step_of_cons h]
  exact takeEvent_accessAt (.write w) { s with inbox := rest } (by decide) (by decide)

/-- A write of DATA that finds room. -/
theorem step_of_dataWrite_of_room {s : State} {rest : List Event} {w : Word}
    (h : s.inbox = accessAt s.cfg (.write w) 0x008 :: rest) (hroom : opbufFull s.cfg s.opbuf.length = false) :
    step s = .next { s with inbox := rest, opbuf := s.opbuf ++ [lowByte w] } := by
  rw [step_of_dataWrite h, State.pushByte_of_room (s := { s with inbox := rest }) hroom]

/-- A write of DATA that finds OPBUF full. -/
theorem step_of_dataWrite_of_full {s : State} {rest : List Event} {w : Word}
    (h : s.inbox = accessAt s.cfg (.write w) 0x008 :: rest) (hfull : opbufFull s.cfg s.opbuf.length = true) :
    step s = .next { s with inbox := rest, status := { s.status with ovf := true } } := by
  rw [step_of_dataWrite h, State.pushByte_of_full (s := { s with inbox := rest }) hfull]

/-- Every successive write of DATA that finds room appends its byte (20_memory.md R36). -/
theorem run_dataWrites (bytes : Bytes) (s : State) (rest : List Event)
    (hin : s.inbox = bytes.map (fun b => accessAt s.cfg (.write (zext32 b)) 0x008) ++ rest)
    (hroom : ∀ m, s.cfg.opbufMax = some m → s.opbuf.length + bytes.length ≤ m) :
    Sys2Proof.core.run bytes.length s = .next { s with inbox := rest, opbuf := s.opbuf ++ bytes } := by
  induction bytes generalizing s with
  | nil =>
    obtain rfl : s.inbox = rest := hin
    simp [Host.Core.run]
  | cons b bytes ih =>
    simp only [List.map_cons, List.cons_append] at hin
    simp only [List.length_cons] at hroom
    have hfull : opbufFull s.cfg s.opbuf.length = false :=
      opbufFull_eq_false_iff.mpr fun m hm => by have := hroom m hm; omega
    have hroom' : ∀ m, s.cfg.opbufMax = some m → (s.opbuf ++ [b]).length + bytes.length ≤ m := fun m hm => by
      have := hroom m hm
      simp only [List.length_append, List.length_singleton]
      omega
    rw [List.length_cons, run_succ_of_next (step_of_dataWrite_of_room hin hfull), lowByte_zext32, ih _ rfl hroom']
    simp

end Sys2Proof.Machine
end

section
/-! SUPPORT. How any command can end, what it leaves unchanged, and how it ended where it changed something. -/
namespace Sys2Proof.Machine

variable {i : Instr} {s t : State}

/-- How any command can end: it fails with a code of its family, PARSE writes a mask that is not 0, a build writes a table,
or a checksum is taken over a valid table or over the one just built. -/
theorem exec_next_cases (h : exec i s = .next t) :
    (∃ k e, e ≠ .none ∧ (k = .parse → i = .parse) ∧ (k = .checksum → i ∈ [.compute, .crc32, .crc32M]) ∧
      t = s.raise k e) ∨
    (i = .parse ∧ ∃ m, m ≠ 0#32 ∧ t = (s.writeMask m).endCommand .none) ∨
    (i ∈ [.build, .buildM] ∧ ∃ p, t = (s.rebuild p).endCommand .none) ∨
    (i = .compute ∧ s.status.tableValid = true ∧ t = (s.checksum s.opbuf).endCommand .none) ∨
    (i ∈ [.crc32, .crc32M] ∧ ∃ p, t = ((s.rebuild p).checksum s.opbuf).endCommand .none) := by
  cases i with
  | parse =>
    rcases exec_parse_cases h with ⟨-, ht⟩ | ⟨-, e, he, ht⟩ | ⟨-, m, hm, ht⟩
    · exact .inl ⟨.parse, .overflow, by decide, by simp, by simp, ht⟩
    · have hne : e ≠ .none := by rcases parsePolynomial_error he with rfl | rfl <;> decide
      exact .inl ⟨.parse, e, hne, by simp, by simp, ht⟩
    · exact .inr (.inl ⟨rfl, m, parsePolynomial_ok_ne_zero hm, ht⟩)
  | build => exact .inr (.inr (.inl ⟨by decide, s.arg, exec_build_cases h⟩))
  | buildM =>
    rcases exec_buildM_cases h with ⟨-, ht⟩ | ⟨-, ht⟩
    · exact .inl ⟨.build, .noPoly, by decide, by simp, by simp, ht⟩
    · exact .inr (.inr (.inl ⟨by decide, s.mask, ht⟩))
  | compute =>
    rcases exec_compute_cases h with ⟨-, ht⟩ | ⟨-, -, ht⟩ | ⟨-, hv, ht⟩
    · exact .inl ⟨.checksum, .overflow, by decide, by simp, by simp, ht⟩
    · exact .inl ⟨.checksum, .noTable, by decide, by simp, by simp, ht⟩
    · exact .inr (.inr (.inr (.inl ⟨rfl, hv, ht⟩)))
  | crc32 =>
    rcases exec_crc32_cases h with ⟨-, ht⟩ | ⟨-, ht⟩
    · exact .inl ⟨.checksum, .overflow, by decide, by simp, by simp, ht⟩
    · exact .inr (.inr (.inr (.inr ⟨by decide, s.arg, ht⟩)))
  | crc32M =>
    rcases exec_crc32M_cases h with ⟨-, ht⟩ | ⟨-, -, ht⟩ | ⟨-, -, ht⟩
    · exact .inl ⟨.checksum, .overflow, by decide, by simp, by simp, ht⟩
    · exact .inl ⟨.checksum, .noPoly, by decide, by simp, by simp, ht⟩
    · exact .inr (.inr (.inr (.inr ⟨by decide, s.mask, ht⟩)))

/-- No command writes ARG (10_state.md R15). -/
theorem exec_arg (h : exec i s = .next t) : t.arg = s.arg := by
  rcases exec_next_cases h with ⟨k, e, -, -, -, rfl⟩ | ⟨-, m, -, rfl⟩ | ⟨-, p, rfl⟩ | ⟨-, -, rfl⟩ | ⟨-, p, rfl⟩ <;> simp

/-- No command writes the parameters (00_scope.md R5). -/
theorem exec_cfg (h : exec i s = .next t) : t.cfg = s.cfg := by
  rcases exec_next_cases h with ⟨k, e, -, -, -, rfl⟩ | ⟨-, m, -, rfl⟩ | ⟨-, p, rfl⟩ | ⟨-, -, rfl⟩ | ⟨-, p, rfl⟩ <;> simp

/-- RESULT changes only where a checksum command ends with no error (10_state.md R26). -/
theorem exec_result (h : exec i s = .next t) :
    t.result = s.result ∨ (t.status.err = .none ∧ i ∈ [Instr.compute, .crc32, .crc32M]) := by
  rcases exec_next_cases h with ⟨k, e, -, -, -, rfl⟩ | ⟨-, m, -, rfl⟩ | ⟨-, p, rfl⟩ | ⟨rfl, -, rfl⟩ | ⟨hi, p, rfl⟩
  · exact .inl (by simp)
  · exact .inl (by simp)
  · exact .inl (by simp)
  · exact .inr ⟨by simp, by simp⟩
  · exact .inr ⟨by simp, List.mem_cons_of_mem _ hi⟩

/-- RESULT_VALID changes only by a checksum command, which a failing one clears (10_state.md R26). -/
theorem exec_resultValid (h : exec i s = .next t) :
    t.status.resultValid = s.status.resultValid ∨ i ∈ [Instr.compute, .crc32, .crc32M] := by
  rcases exec_next_cases h with ⟨k, e, -, -, hk, rfl⟩ | ⟨-, m, -, rfl⟩ | ⟨-, p, rfl⟩ | ⟨rfl, -, rfl⟩ | ⟨hi, p, rfl⟩
  · by_cases hc : k = .checksum
    · exact .inr (hk hc)
    · exact .inl (by simp [hc])
  · exact .inl (by simp)
  · exact .inl (by simp)
  · exact .inr (by simp)
  · exact .inr (List.mem_cons_of_mem _ hi)

end Sys2Proof.Machine

namespace Sys2Proof.Safety

open Sys2Proof.Machine

variable {i : Instr} {s t : State}

/-- Only PARSE writes MASK and PARSE_OK (10_state.md R21). -/
theorem SameMask.of_exec (h : exec i s = .next t) (hi : i ≠ .parse) : SameMask s t := by
  rcases exec_next_cases h with ⟨k, e, -, hk, -, rfl⟩ | ⟨rfl, -⟩ | ⟨-, p, rfl⟩ | ⟨-, -, rfl⟩ | ⟨-, p, rfl⟩
  · have hk' : k ≠ .parse := fun h => hi (hk h)
    simp [SameMask, hk']
  · exact absurd rfl hi
  all_goals simp [SameMask]

/-- A command leaves TABLE, TABLE_POLY and TABLE_VALID, or it is a build that ends with no error and sets TABLE_VALID
(10_state.md R23 to R25). -/
theorem sameTable_or_built_of_exec (h : exec i s = .next t) :
    (SameTable s t ∧ ¬ (t.status.err = .none ∧ i ∈ [Instr.build, .buildM, .crc32, .crc32M])) ∨
    (t.status.tableValid = true ∧ t.status.err = .none ∧ i ∈ [Instr.build, .buildM, .crc32, .crc32M]) := by
  rcases exec_next_cases h with ⟨k, e, he, -, -, rfl⟩ | ⟨rfl, m, -, rfl⟩ | ⟨hi, p, rfl⟩ | ⟨rfl, -, rfl⟩ | ⟨hi, p, rfl⟩
  · exact .inl ⟨by simp [SameTable], by simp [he]⟩
  · exact .inl ⟨by simp [SameTable], by simp⟩
  · exact .inr ⟨by simp, by simp, List.mem_append_left [Instr.crc32, .crc32M] hi⟩
  · exact .inl ⟨by simp [SameTable], by simp⟩
  · exact .inr ⟨by simp, by simp, List.mem_append_right [Instr.build, .buildM] hi⟩

/-- After a command TABLE_VALID is 1 exactly if it was before or the command built a table (10_state.md R24). -/
theorem exec_tableValid_iff (h : exec i s = .next t) :
    t.status.tableValid = true ↔ s.status.tableValid = true ∨
      (t.status.err = .none ∧ i ∈ [Instr.build, .buildM, .crc32, .crc32M]) := by
  rcases sameTable_or_built_of_exec h with ⟨⟨-, -, hv⟩, hno⟩ | ⟨hv, hbuilt⟩
  · simp only [hv, hno, or_false]
  · exact iff_of_true hv (.inr hbuilt)

/-! Which events are a write of a command. -/

/-- A write of a word to CMD is the command the word encodes. -/
theorem commands_commandWrite_iff {c : Config} {w : Word} : Commands c (commandWrite c w) i ↔ decode w = .instr i := by
  simp [Commands, commandWrite]

theorem not_commands_read (c : Config) (off : Nat) : ¬ Commands c (accessAt c .read off) i := by
  simp [Commands, commandWrite]

/-- A write at another offset than CMD's is no command. -/
theorem not_commands_write {c : Config} {w : Word} {off : Nat} (h : 0 < off) :
    ¬ Commands c (accessAt c (.write w) off) i := by
  simp [Commands, commandWrite, Reg.offset, Nat.ne_of_gt h]

/-- After a step that takes the event `e`, TABLE_VALID is 1 exactly if `e` is not the reset input and it was 1 before or `e`
is a command that built a table (10_state.md R24). -/
theorem tableValid_iff_of_event {e : Event} {rest : List Event} (hin : s.inbox = e :: rest) (h : step s = .next t) :
    t.status.tableValid = true ↔ e ≠ .reset ∧ (s.status.tableValid = true ∨
      (t.status.err = .none ∧ ∃ i ∈ [Instr.build, .buildM, .crc32, .crc32M], Commands s.cfg e i)) := by
  rcases step_next_cases h with ⟨hnil, -⟩ | ⟨e', rest', hin', he⟩
  · simp [hnil] at hin
  obtain ⟨rfl, rfl⟩ : e = e' ∧ rest = rest' := by simpa [hin] using hin'
  rcases he with ⟨rfl, rfl⟩ | ⟨off, -, -, rfl, rfl⟩ | ⟨w, i, hd, rfl, hx⟩ | ⟨w, why, hd, rfl, rfl⟩ | ⟨w, rfl, rfl⟩ |
    ⟨w, rfl, rfl⟩ | ⟨w, off, -, -, rfl, hoff, rfl⟩
  · simp [Status.reset]
  · simp [not_commands_read]
  · rw [exec_tableValid_iff hx]
    simp [commands_commandWrite_iff, hd]
  · simp [commands_commandWrite_iff, hd]
  · simp [not_commands_write]
  · simp [not_commands_write]
  · simp [not_commands_write (Nat.zero_lt_of_lt hoff)]

end Sys2Proof.Safety
end

section
/-! SUPPORT. The invariant of the registers, operation by operation. -/
namespace Sys2Proof.Safety

open Sys2Proof.Machine

variable {s t : State}

/-- The invariant speaks of these fields only. -/
theorem Inv.congr (h : Inv s) (hcfg : t.cfg = s.cfg) (hbuf : t.opbuf = s.opbuf) (hst : t.status = s.status)
    (hmask : t.mask = s.mask) (htab : t.table = s.table) (hpoly : t.tablePoly = s.tablePoly)
    (hdef : t.resultDefined = s.resultDefined) (hlog : t.errLog = s.errLog) : Inv t := by
  obtain ⟨h1, h2, h3, h4, h5, h6, h7, h8⟩ := h
  constructor <;> simpa only [hcfg, hbuf, hst, hmask, htab, hpoly, hdef, hlog]

theorem Inv.setInbox (h : Inv s) (rest : List Event) : Inv { s with inbox := rest } :=
  h.congr rfl rfl rfl rfl rfl rfl rfl rfl

theorem Inv.answer (h : Inv s) (r : Reply) : Inv (s.answer r) := h.congr rfl rfl rfl rfl rfl rfl rfl rfl

theorem Inv.writeArg (h : Inv s) (w : Word) : Inv (s.writeArg w) := h.congr rfl rfl rfl rfl rfl rfl rfl rfl

/-- A byte is appended only where there is room, and OVF is set only where there is none. -/
theorem Inv.pushByte (h : Inv s) (b : Byte) : Inv (s.pushByte b) := by
  cases hfull : opbufFull s.cfg s.opbuf.length with
  | true =>
    rw [State.pushByte_of_full hfull]
    exact { h with ovfMeansFull := fun _ => hfull }
  | false =>
    rw [State.pushByte_of_room hfull]
    have hovf : s.status.ovf = false := by
      by_contra ho
      simp [h.ovfMeansFull (by simpa using ho)] at hfull
    have hfits : ∀ m, s.cfg.opbufMax = some m → (s.opbuf ++ [b]).length ≤ m := by
      simpa using opbufFull_eq_false_iff.mp hfull
    exact { h with bufferFits := hfits, ovfMeansFull := by simp [hovf] }

/-- The reset input clears every register, and keeps the record. -/
theorem Inv.resetCore (h : Inv s) : Inv s.resetCore where
  bufferFits := by simp
  ovfMeansFull := by simp [Status.reset]
  parseOkIffMask := by simp [Status.reset]
  tableMatches := by simp [Status.reset]
  validDefined := by simp [Status.reset]
  definedTable := by simp
  errIsLogged := by simp [Status.reset]
  logHoldsErrors := h.logHoldsErrors

/-- The end of a command empties OPBUF with OVF, and logs what it leaves in ERR. -/
theorem Inv.endCommand (h : Inv s) (c : ErrCode) : Inv (s.endCommand c) :=
  { h with
    bufferFits := by simp
    ovfMeansFull := by simp
    errIsLogged := fun hc => getLast?_logError hc s.errLog
    logHoldsErrors := none_notMem_logError h.logHoldsErrors }

/-- A failing PARSE clears MASK with PARSE_OK, a failing checksum command RESULT_VALID. -/
theorem Inv.failureWrites (h : Inv s) (k : FailKind) : Inv (s.failureWrites k) := by
  cases k with
  | illegal => exact h
  | parse => exact { h with parseOkIffMask := by simp [State.failureWrites] }
  | build => exact h
  | checksum => exact { h with validDefined := by simp [State.failureWrites] }

theorem Inv.raise (h : Inv s) (k : FailKind) (c : ErrCode) : Inv (s.raise k c) := (h.failureWrites k).endCommand c

theorem Inv.writeMask (h : Inv s) {m : Word} (hm : m ≠ 0#32) : Inv (s.writeMask m) :=
  { h with parseOkIffMask := by simp [hm] }

theorem Inv.rebuild (h : Inv s) (p : Word) : Inv (s.rebuild p) :=
  { h with
    tableMatches := fun _ i => memRead_buildTable p i
    definedTable := fun _ => rfl }

/-- A checksum over a valid table leaves a specified result. -/
theorem Inv.checksum (h : Inv s) (hv : s.status.tableValid = true) (b : Bytes) : Inv (s.checksum b) :=
  { h with
    validDefined := fun _ => rfl
    definedTable := fun _ => hv }

/-- Every command keeps the invariant. -/
theorem Inv.of_exec {i : Instr} (h : Inv s) (hx : exec i s = .next t) : Inv t := by
  rcases exec_next_cases hx with ⟨k, e, -, -, -, rfl⟩ | ⟨-, m, hm, rfl⟩ | ⟨-, p, rfl⟩ | ⟨-, hv, rfl⟩ | ⟨-, p, rfl⟩
  · exact h.raise k e
  · exact (h.writeMask hm).endCommand .none
  · exact (h.rebuild p).endCommand .none
  · exact (h.checksum hv s.opbuf).endCommand .none
  · exact ((h.rebuild p).checksum rfl s.opbuf).endCommand .none

/-- Every step keeps the invariant. -/
theorem Inv.of_step (h : Inv s) (hs : step s = .next t) : Inv t := by
  rcases step_next_cases hs with ⟨-, rfl⟩ | ⟨e, rest, -, he⟩
  · exact h
  · have hr : Inv { s with inbox := rest } := h.setInbox rest
    rcases he with ⟨-, rfl⟩ | ⟨off, -, -, -, rfl⟩ | ⟨w, i, -, -, hx⟩ | ⟨w, why, -, -, rfl⟩ | ⟨w, -, rfl⟩ | ⟨w, -, rfl⟩ |
      ⟨w, off, -, -, -, -, rfl⟩
    · exact hr.resetCore
    · exact hr.answer _
    · exact hr.of_exec hx
    · exact hr.raise .illegal .illegal
    · exact hr.writeArg w
    · exact hr.pushByte (lowByte w)
    · exact hr

end Sys2Proof.Safety
end

section
/-! SUPPORT. States that agree in every specified value (10_state.md R31): commands find the same operands in both and make the
same writes. -/
namespace Sys2Proof.Safety

open Sys2Proof.Machine

variable {s s' : State}

theorem SameSpecified.bytesOperand (h : SameSpecified s s') : bytesOperand s' = bytesOperand s := by
  obtain ⟨-, hbuf, hst, -⟩ := h
  simp only [Machine.bytesOperand, hbuf, hst]

theorem SameSpecified.maskOperand (h : SameSpecified s s') : maskOperand s' = maskOperand s := by
  obtain ⟨-, -, hst, hmask, -⟩ := h
  simp only [Machine.maskOperand, hst, hmask]

theorem SameSpecified.argOperand (h : SameSpecified s s') : argOperand s' = argOperand s := h.1

/-- COMPUTE checks TABLE_VALID before it reads TABLE (41_engine.md R84). -/
theorem SameSpecified.tableOperand (h : SameSpecified s s') : tableOperand s' = tableOperand s := by
  obtain ⟨-, -, hst, -, -, -, -, htab, -⟩ := h
  cases hv : s.status.tableValid with
  | true => rw [tableOperand_of_valid hv, tableOperand_of_valid (hst ▸ hv), (htab hv).1]
  | false => rw [tableOperand_of_not_valid hv, tableOperand_of_not_valid (hst ▸ hv)]

theorem SameSpecified.parseOutcome (h : SameSpecified s s') : parseOutcome s' = parseOutcome s := by
  have hb := h.bytesOperand
  obtain ⟨-, -, -, -, -, -, ⟨hcfg, -⟩, -⟩ := h
  simp only [Machine.parseOutcome, hb, hcfg]

theorem SameSpecified.endCommand (h : SameSpecified s s') (c : ErrCode) :
    SameSpecified (s.endCommand c) (s'.endCommand c) := by
  obtain ⟨harg, hbuf, hst, hmask, hdef, hlog, hsur, htab, hres⟩ := h
  exact ⟨harg, rfl, by simp [hst], hmask, hdef, by simp [hlog], hsur, htab, hres⟩

theorem SameSpecified.failureWrites (h : SameSpecified s s') (k : FailKind) :
    SameSpecified (s.failureWrites k) (s'.failureWrites k) := by
  obtain ⟨harg, hbuf, hst, hmask, hdef, hlog, hsur, htab, hres⟩ := h
  cases k with
  | illegal => exact ⟨harg, hbuf, hst, hmask, hdef, hlog, hsur, htab, hres⟩
  | parse => exact ⟨harg, hbuf, by simp [State.failureWrites, hst], rfl, hdef, hlog, hsur, htab, hres⟩
  | build => exact ⟨harg, hbuf, hst, hmask, hdef, hlog, hsur, htab, hres⟩
  | checksum => exact ⟨harg, hbuf, by simp [State.failureWrites, hst], hmask, hdef, hlog, hsur, htab, hres⟩

theorem SameSpecified.raise (h : SameSpecified s s') (k : FailKind) (c : ErrCode) :
    SameSpecified (s.raise k c) (s'.raise k c) := (h.failureWrites k).endCommand c

theorem SameSpecified.writeMask (h : SameSpecified s s') (m : Word) :
    SameSpecified (s.writeMask m) (s'.writeMask m) := by
  obtain ⟨harg, hbuf, hst, -, hdef, hlog, hsur, htab, hres⟩ := h
  exact ⟨harg, hbuf, by simp [hst], rfl, hdef, hlog, hsur, htab, hres⟩

/-- After a build the whole of TABLE is specified and the same. -/
theorem SameSpecified.rebuild (h : SameSpecified s s') (p : Word) :
    SameSpecified (s.rebuild p) (s'.rebuild p) := by
  obtain ⟨harg, hbuf, hst, hmask, hdef, hlog, hsur, -, hres⟩ := h
  exact ⟨harg, hbuf, by simp [hst], hmask, hdef, hlog, hsur, fun _ => ⟨rfl, rfl⟩, hres⟩

theorem SameSpecified.writeResult (h : SameSpecified s s') (r : Word) :
    SameSpecified (s.writeResult r) (s'.writeResult r) := by
  obtain ⟨harg, hbuf, hst, hmask, -, hlog, hsur, htab, -⟩ := h
  exact ⟨harg, hbuf, by simp [hst], hmask, rfl, hlog, hsur, htab, fun _ => rfl⟩

/-- A checksum over a valid table reads specified values only. -/
theorem SameSpecified.checksum (h : SameSpecified s s') (hv : s.status.tableValid = true) (b : Bytes) :
    SameSpecified (s.checksum b) (s'.checksum b) := by
  have ht : s'.table = s.table := by
    obtain ⟨-, -, -, -, -, -, -, htab, -⟩ := h
    exact (htab hv).1
  rw [State.checksum, State.checksum, ht]
  exact h.writeResult (crc b s.table)

/-- A command takes states that agree in every specified value to states that do: it finds the same operands in both, and
makes the same writes. -/
theorem SameSpecified.exec (h : SameSpecified s s') (i : Instr) :
    ∃ t t', exec i s = .next t ∧ exec i s' = .next t' ∧ SameSpecified t t' := by
  cases i with
  | parse =>
    simp only [Machine.exec, execParse, h.parseOutcome]
    cases Machine.parseOutcome s with
    | error e => exact ⟨_, _, rfl, rfl, h.raise .parse e⟩
    | ok m => exact ⟨_, _, rfl, rfl, (h.writeMask m).endCommand .none⟩
  | build =>
    simp only [Machine.exec, execBuild, h.argOperand]
    exact ⟨_, _, rfl, rfl, (h.rebuild _).endCommand .none⟩
  | buildM =>
    simp only [Machine.exec, execBuildM, h.maskOperand]
    cases Machine.maskOperand s with
    | error e => exact ⟨_, _, rfl, rfl, h.raise .build e⟩
    | ok p => exact ⟨_, _, rfl, rfl, (h.rebuild p).endCommand .none⟩
  | compute =>
    simp only [Machine.exec, execCompute, h.bytesOperand, h.tableOperand]
    cases Machine.bytesOperand s with
    | error e => exact ⟨_, _, rfl, rfl, h.raise .checksum e⟩
    | ok b =>
      cases Machine.tableOperand s with
      | error e => exact ⟨_, _, rfl, rfl, h.raise .checksum e⟩
      | ok tab => exact ⟨_, _, rfl, rfl, (h.writeResult (crc b tab)).endCommand .none⟩
  | crc32 =>
    simp only [Machine.exec, execCrc32, h.bytesOperand, h.argOperand]
    cases Machine.bytesOperand s with
    | error e => exact ⟨_, _, rfl, rfl, h.raise .checksum e⟩
    | ok b => exact ⟨_, _, rfl, rfl, ((h.rebuild _).checksum rfl b).endCommand .none⟩
  | crc32M =>
    simp only [Machine.exec, execCrc32M, h.bytesOperand, h.maskOperand]
    cases Machine.bytesOperand s with
    | error e => exact ⟨_, _, rfl, rfl, h.raise .checksum e⟩
    | ok b =>
      cases Machine.maskOperand s with
      | error e => exact ⟨_, _, rfl, rfl, h.raise .checksum e⟩
      | ok p => exact ⟨_, _, rfl, rfl, ((h.rebuild p).checksum rfl b).endCommand .none⟩

/-- A read answers alike in states that agree in every specified value (10_state.md R31). -/
theorem SameSpecified.hostRead (h : SameSpecified s s') (off : Nat) : hostRead off s' = hostRead off s := by
  obtain ⟨harg, hbuf, hst, hmask, hdef, -, -, htab, hres⟩ := h
  unfold Machine.hostRead
  cases regAt off with
  | none => rfl
  | some r =>
    cases r with
    | result => simpa only [readReg, hdef] using specifiedWhen_congr hres
    | tablePoly => simpa only [readReg, hst] using specifiedWhen_congr fun hv => (htab hv).2
    | table j =>
      simpa only [readReg, hst] using specifiedWhen_congr fun hv => congrArg (memRead · j) (htab hv).1
    | cmd => rfl
    | data => rfl
    | arg => simp only [readReg, harg]
    | status => simp only [readReg, hst]
    | mask => simp only [readReg, hmask]
    | oplen => simp only [readReg, oplen, hbuf]

end Sys2Proof.Safety
end

section
/-! The statements of 10_state.md. -/
namespace Sys2Proof.Proofs

open Sys2Proof.Machine Sys2Proof.Safety

/-- Settles O49: the invariant is kept by each operation a step is made of. -/
theorem stepKeepsInvariant : Obligations.StepKeepsInvariant := by
  unfold Obligations.StepKeepsInvariant
  intro s t h hs
  exact h.of_step hs

/-- Settles O14: the step of an ARG write, what BUILD and CRC32 leave, and that no command writes ARG. -/
theorem argHoldsLastWrite : Obligations.ArgHoldsLastWrite := by
  unfold Obligations.ArgHoldsLastWrite
  refine ⟨fun s w rest hin => ⟨_, step_of_argWrite hin, rfl, rfl, rfl⟩, fun s t h => ?_, fun s t hovf h => ?_,
    fun i s t h => exec_arg h, rfl⟩
  · rw [exec_build_cases h]
    simp
  · rcases exec_crc32_cases h with ⟨hovf', -⟩ | ⟨-, rfl⟩
    · simp [hovf] at hovf'
    · simp

/-- Settles O16, by induction on the bytes. -/
theorem dataWritesFillBufferInOrder : Obligations.DataWritesFillBufferInOrder := by
  unfold Obligations.DataWritesFillBufferInOrder
  intro s bytes rest hin hroom
  exact run_dataWrites bytes s rest hin hroom

/-- Settles O20: reads and commands see specified values only. -/
theorem unspecifiedValuesAreNotRead : Obligations.UnspecifiedValuesAreNotRead := by
  unfold Obligations.UnspecifiedValuesAreNotRead
  refine ⟨fun s hv => ⟨fun j => ?_, ?_⟩, fun s hd => ?_, fun s s' h off => h.hostRead off, fun i s s' t t' h hx hx' => ?_⟩
  · rw [hostRead_table, hv, specifiedWhen_false]
  · rw [hostRead_tablePoly, hv, specifiedWhen_false]
  · rw [hostRead_result, hd, specifiedWhen_false]
  · obtain ⟨u, u', hu, hu', hagree⟩ := h.exec i
    rw [hu, Host.Outcome.next.injEq] at hx
    rw [hu', Host.Outcome.next.injEq] at hx'
    exact hx ▸ hx' ▸ hagree

/-- Settles O50, by cases on the event the step takes. -/
theorem registerWriters : Obligations.RegisterWriters := by
  unfold Obligations.RegisterWriters
  intro s t h
  rcases step_next_cases h with ⟨-, rfl⟩ | ⟨e, rest, hin, he⟩
  · -- idle
    simp [SameMask, SameTable]
  rcases he with ⟨rfl, rfl⟩ | ⟨off, -, -, -, rfl⟩ | ⟨w, i, hd, rfl, hx⟩ | ⟨w, why, -, rfl, rfl⟩ | ⟨w, rfl, rfl⟩ |
    ⟨w, rfl, rfl⟩ | ⟨w, off, -, -, -, -, rfl⟩
  · -- the reset input, which every clause allows
    refine ⟨?_, ?_, ?_, ?_, ?_, ?_, ?_, rfl⟩ <;> exact fun _ => ⟨_, _, hin, .inl rfl⟩
  · -- a host read
    simp [SameMask, SameTable]
  · -- a command
    have hc : Commands s.cfg (commandWrite s.cfg w) i := commands_commandWrite_iff.mpr hd
    refine ⟨fun hne => absurd (exec_arg hx) hne, fun hne => ?_, fun hne => ?_, fun hne => ?_, fun hne => ?_,
      fun _ => ⟨_, _, hin, .inr ⟨w, .inr rfl⟩⟩, fun _ => ⟨_, _, hin, .inr ⟨w, rfl⟩⟩, (exec_cfg hx :)⟩
    · have hi : i = .parse := by_contra fun hi => hne (SameMask.of_exec hx hi :)
      exact ⟨_, _, hin, .inr (hi ▸ hc)⟩
    · rcases sameTable_or_built_of_exec hx with ⟨hsame, -⟩ | ⟨-, herr, hi⟩
      · exact absurd hsame hne
      · exact ⟨_, _, hin, .inr ⟨herr, i, hi, hc⟩⟩
    · obtain ⟨herr, hi⟩ := (exec_result hx).resolve_left hne
      exact ⟨_, _, hin, .inr ⟨herr, i, hi, hc⟩⟩
    · exact ⟨_, _, hin, .inr ⟨i, (exec_resultValid hx).resolve_left hne, hc⟩⟩
  · -- an illegal word, which writes OPBUF, OVF and ERR
    exact ⟨by simp, by simp [SameMask], by simp [SameTable], by simp, by simp,
      fun _ => ⟨_, _, hin, .inr ⟨w, .inr rfl⟩⟩, fun _ => ⟨_, _, hin, .inr ⟨w, rfl⟩⟩, by simp⟩
  · -- a write of ARG
    exact ⟨fun _ => ⟨_, _, hin, .inr rfl⟩, by simp [SameMask], by simp [SameTable], by simp, by simp, by simp, by simp,
      by simp⟩
  · -- a write of DATA, which writes OPBUF or OVF
    exact ⟨by simp, by simp [SameMask], by simp [SameTable], by simp, by simp,
      fun _ => ⟨_, _, hin, .inr ⟨w, .inl rfl⟩⟩, by simp, by simp⟩
  · -- a write that is ignored
    simp [SameMask, SameTable]

/-- Settles O51, by the event the step takes, if there is one. -/
theorem tableValidMeansBuilt : Obligations.TableValidMeansBuilt := by
  unfold Obligations.TableValidMeansBuilt
  intro s t h
  cases hin : s.inbox with
  | nil =>
    rw [step_of_empty hin, Host.Outcome.next.injEq] at h
    simp [h]
  | cons e rest => simp [tableValid_iff_of_event hin h]

/-- Settles O5: CMD takes the word to its decoded command. -/
theorem stepRunsDecodedCommand : Obligations.StepRunsDecodedCommand := by
  unfold Obligations.StepRunsDecodedCommand
  intro s rest w i hin hd
  exact step_of_command hin hd

/-- Settles O6: the placed write is the oldest event, and taking it gives the state back. -/
theorem placedWordRunsNext : Obligations.PlacedWordRunsNext := by
  unfold Obligations.PlacedWordRunsNext
  intro s w i h
  exact step_of_command (s := s.withFetchWord 32 w) rfl (decode_of_decodeTableWord h)

/-- Settles O15, by whether OPBUF has room. -/
theorem dataWriteAppendsOrOverflows : Obligations.DataWriteAppendsOrOverflows := by
  unfold Obligations.DataWriteAppendsOrOverflows
  intro s w rest hin
  constructor
  · intro hroom
    rw [step_of_dataWrite_of_room hin (opbufFull_eq_false_iff.mpr hroom), lowByte_eq_extract]
  · intro m hm hle
    exact step_of_dataWrite_of_full hin (opbufFull_eq_true_iff.mpr ⟨m, hm, hle⟩)

/-- Settles O17: STATUS is its fields side by side. -/
theorem statusLayout : Obligations.StatusLayout := by
  unfold Obligations.StatusLayout
  refine ⟨fun t => ?_, rfl, rfl, rfl, rfl, rfl, rfl, rfl⟩
  obtain ⟨hparse, htable, hresult, hovf⟩ := t.flags_word
  exact ⟨hparse, htable, hresult, hovf, t.err_word, t.reserved_word⟩

/-- Settles O18: each value is read off the reset state. -/
theorem resetValues : Obligations.ResetValues := by
  unfold Obligations.ResetValues
  refine ⟨rfl, rfl, rfl, rfl, rfl, fun i => ?_, rfl, rfl⟩
  rw [hostRead_table]
  rfl

/-- Settles O48, clause by clause of the invariant. -/
theorem resetMeetsInvariant : Obligations.ResetMeetsInvariant := by
  unfold Obligations.ResetMeetsInvariant
  constructor <;> simp [State.reset, Status.reset, Config.initial]

end Sys2Proof.Proofs
end

section
/-! SUPPORT. What the window and the port do with an event: which events have a step, where each register is, and the steps of
reads and of ignored writes. -/
namespace Sys2Proof.Machine

open Sys2Proof.Safety

variable {s t : State} {off : Nat} {rest : List Event}

/-- The accesses that have an offset, and where they are (20_memory.md R32, R35). -/
theorem windowOffset_eq_ok_iff {c : Config} {a : Access} :
    windowOffset c a = .ok off ↔ a.width = 32 ∧ a.addr = c.base + off ∧ off % 4 = 0 ∧ off < 0x800 := by
  refine ⟨windowOffset_ok, fun ⟨hw, ha, h4, hlt⟩ => ?_⟩
  obtain ⟨op, width, addr⟩ := a
  obtain rfl : width = 32 := hw
  obtain rfl : addr = c.base + off := ha
  exact windowOffset_accessAt c op h4 hlt

/-- The events of the interface: the reset input, and each 32-bit access that is aligned and in the window
(20_memory.md R41). -/
theorem eventDefined_iff {c : Config} {e : Event} :
    eventDefined c e = true ↔ e = .reset ∨ ∃ a : Access, e = .access a ∧ a.width = 32 ∧ c.base ≤ a.addr ∧
      a.addr < c.base + 0x800 ∧ (a.addr - c.base) % 4 = 0 := by
  cases e with
  | reset => simp [eventDefined]
  | access a =>
    have hok : eventDefined c (.access a) = true ↔ ∃ off, windowOffset c a = .ok off := by
      cases h : windowOffset c a <;> simp [eventDefined, h]
    simp only [hok, windowOffset_eq_ok_iff, reduceCtorEq, false_or, Event.access.injEq, exists_eq_left']
    constructor
    · rintro ⟨off, hw, ha, h4, hlt⟩
      omega
    · rintro ⟨hw, hle, hlt, h4⟩
      exact ⟨a.addr - c.base, hw, by omega, h4, by omega⟩

/-- A command completes from every state (60_exceptions.md R99): `SameSpecified.exec`, of the state and itself. -/
theorem exec_completes (i : Instr) (s : State) : ∃ t, exec i s = .next t := by
  have hself : SameSpecified s s :=
    ⟨rfl, rfl, rfl, rfl, rfl, rfl, ⟨rfl, rfl, rfl⟩, fun _ => ⟨rfl, rfl⟩, fun _ => rfl⟩
  obtain ⟨t, -, ht, -⟩ := hself.exec i
  exact ⟨t, ht⟩

/-- A command leaves OPBUF empty and OVF 0 (60_exceptions.md R98). -/
theorem exec_clears_operands {i : Instr} (h : exec i s = .next t) : t.opbuf = [] ∧ t.status.ovf = false := by
  rcases exec_next_cases h with ⟨k, e, -, -, -, rfl⟩ | ⟨-, m, -, rfl⟩ | ⟨-, p, rfl⟩ | ⟨-, -, rfl⟩ | ⟨-, p, rfl⟩ <;> simp

/-- A command takes no event of those to come (20_memory.md R45). -/
theorem exec_inbox {i : Instr} (h : exec i s = .next t) : t.inbox = s.inbox := by
  rcases exec_next_cases h with ⟨k, e, -, -, -, rfl⟩ | ⟨-, m, -, rfl⟩ | ⟨-, p, rfl⟩ | ⟨-, -, rfl⟩ | ⟨-, p, rfl⟩ <;> simp

/-- A write at any offset completes. -/
theorem hostWrite_completes (off : Nat) (w : Word) (s : State) : ∃ t, hostWrite off w s = .next t := by
  rcases hostWrite_cases off w s with ⟨-, h⟩ | ⟨-, h⟩ | ⟨-, h⟩ | ⟨-, -, -, h⟩
  · rcases runCommand_cases w s with ⟨i, -, hx⟩ | ⟨why, -, hx⟩
    · rw [h, hx]
      exact exec_completes i s
    · exact ⟨_, h.trans hx⟩
  · exact ⟨_, h⟩
  · exact ⟨_, h⟩
  · exact ⟨_, h⟩

/-- An event of the interface completes, and any other one is a fault (20_memory.md R35). -/
theorem takeEvent_cases (e : Event) (s : State) :
    (eventDefined s.cfg e = true ∧ ∃ t, takeEvent e s = .next t) ∨
    (eventDefined s.cfg e = false ∧ ∃ f, takeEvent e s = .fault f) := by
  cases e with
  | reset => exact .inl ⟨rfl, _, rfl⟩
  | access a =>
    cases h : windowOffset s.cfg a with
    | error f => exact .inr ⟨by simp [eventDefined, h], f, by simp [takeEvent, hostAccess, h]⟩
    | ok off =>
      refine .inl ⟨by simp [eventDefined, h], ?_⟩
      obtain ⟨op, width, addr⟩ := a
      cases op with
      | read => exact ⟨s.answer (hostRead off s), by simp only [takeEvent, hostAccess, h]⟩
      | write w =>
        obtain ⟨t, ht⟩ := hostWrite_completes off w s
        exact ⟨t, by simp only [takeEvent, hostAccess, h, ht]⟩

/-- A step that takes an event leaves those after it in their order (20_memory.md R45). -/
theorem step_inbox {e : Event} (hin : s.inbox = e :: rest) (h : step s = .next t) : t.inbox = rest := by
  rcases step_next_cases h with ⟨hnil, -⟩ | ⟨e', rest', hin', he⟩
  · simp [hnil] at hin
  obtain ⟨-, rfl⟩ : e = e' ∧ rest = rest' := by simpa [hin] using hin'
  rcases he with ⟨-, rfl⟩ | ⟨off, -, -, -, rfl⟩ | ⟨w, i, -, -, hx⟩ | ⟨w, why, -, -, rfl⟩ | ⟨w, -, rfl⟩ | ⟨w, -, rfl⟩ |
    ⟨w, off, -, -, -, -, rfl⟩
  · simp
  · simp
  · exact exec_inbox hx
  · simp
  · simp
  · simp
  · rfl

/-- No register stands at a reserved offset (20_memory.md R34). -/
theorem regAt_reserved (hlo : 0x020 ≤ off) (hhi : off ≤ 0x3FC) : regAt off = none := by
  have hne : ∀ k < 0x020, off ≠ k := fun k hk => by omega
  have hlt : off < 0x400 := by omega
  simp [regAt, hne, hlt]

/-- Each register is found at its own offset (20_memory.md R33). -/
theorem regAt_offset (r : Reg) : regAt r.offset = some r := by
  cases r with
  | table i => exact regAt_table i
  | cmd | arg | data | status | mask | result | tablePoly | oplen => rfl

/-- The offset of a register is an aligned one of the window (20_memory.md R33). -/
theorem Reg.offset_aligned (r : Reg) : r.offset % 4 = 0 ∧ r.offset < 0x800 := by
  cases r with
  | table i =>
    have hi := i.isLt
    simp only [Reg.offset]
    omega
  | cmd | arg | data | status | mask | result | tablePoly | oplen => decide

/-- A reserved offset reads as 0 (20_memory.md R34). -/
theorem hostRead_reserved (hlo : 0x020 ≤ off) (hhi : off ≤ 0x3FC) (s : State) : hostRead off s = .word 0#32 := by
  simp only [hostRead, regAt_reserved hlo hhi]

/-- A write from the first read-only register on is ignored (20_memory.md R34). -/
theorem hostWrite_ignored (h : 0x00C ≤ off) (w : Word) (s : State) : hostWrite off w s = .next s := by
  rcases hostWrite_cases off w s with ⟨hr, -⟩ | ⟨hr, -⟩ | ⟨hr, -⟩ | ⟨-, -, -, hx⟩
  · have := regAt_eq_cmd hr
    omega
  · have := regAt_eq_arg hr
    omega
  · have := regAt_eq_data hr
    omega
  · exact hx

/-- What a read answers rests on no event to come and on no reply so far (20_memory.md R38). -/
@[simp] theorem hostRead_setRecords (off : Nat) (s : State) (inbox : List Event) (replies : List Reply) :
    hostRead off { s with inbox := inbox, replies := replies } = hostRead off s :=
  hostRead_congr rfl rfl rfl rfl rfl rfl rfl rfl

/-- A read hands its answer to the host and does nothing else (20_memory.md R38, R41). -/
theorem step_of_read (h4 : off % 4 = 0) (hlt : off < 0x800) (hin : s.inbox = accessAt s.cfg .read off :: rest) :
    step s = .next { s with inbox := rest, replies := s.replies ++ [hostRead off s] } := by
  rw [step_of_cons hin, ← hostRead_setRecords off s rest s.replies]
  exact takeEvent_accessAt .read { s with inbox := rest } h4 hlt

/-- A write at a read-only register or a reserved offset changes nothing (20_memory.md R34). -/
theorem step_of_ignoredWrite {w : Word} (h4 : off % 4 = 0) (hlt : off < 0x800) (hoff : 0x00C ≤ off)
    (hin : s.inbox = accessAt s.cfg (.write w) off :: rest) : step s = .next { s with inbox := rest } := by
  rw [step_of_cons hin, ← hostWrite_ignored hoff w]
  exact takeEvent_accessAt (.write w) { s with inbox := rest } h4 hlt

/-- Successive reads get what the first state answers at each offset, since no read changes it (20_memory.md R38). -/
theorem run_reads (offs : List Nat) (s : State) (rest : List Event) (hoffs : ∀ off ∈ offs, off % 4 = 0 ∧ off < 0x800)
    (hin : s.inbox = offs.map (accessAt s.cfg .read) ++ rest) :
    Sys2Proof.core.run offs.length s =
      .next { s with inbox := rest, replies := s.replies ++ offs.map fun off => hostRead off s } := by
  induction offs generalizing s with
  | nil =>
    obtain rfl : s.inbox = rest := hin
    simp [Host.Core.run]
  | cons off offs ih =>
    obtain ⟨⟨h4, hlt⟩, hoffs⟩ := List.forall_mem_cons.mp hoffs
    rw [List.length_cons, run_succ_of_next (step_of_read h4 hlt hin), ih _ hoffs rfl]
    simp

end Sys2Proof.Machine
end

section
/-! SUPPORT. The table algorithm is the bit-serial one: a shift by a whole byte takes the byte's bits one at a time, and the
bits above it only move down. -/
namespace Sys2Proof.Machine

open Sys2Proof.Safety

/-- One shift with `d` combined in takes bit 0 of `d` as its data bit and moves the others down. -/
theorem shiftStep_xor (p v d : Word) : shiftStep p (v ^^^ d) = serialStep p v (d.getLsbD 0) ^^^ (d >>> 1) := by
  simp only [shiftStep, serialStep, BitVec.getLsbD_xor, BitVec.ushiftRight_xor_distrib]
  split
  · rw [BitVec.xor_assoc, BitVec.xor_comm (d >>> 1), ← BitVec.xor_assoc]
  · rfl

/-- `n` shifts with `d` combined in take the `n` low bits of `d` as data, the lowest first, and move the others down. -/
theorem shiftSteps_xor (p v d : Word) (n : Nat) :
    shiftSteps p n (v ^^^ d) = ((List.range n).map d.getLsbD).foldl (serialStep p) v ^^^ (d >>> n) := by
  induction n generalizing v d with
  | zero => simp
  | succ n ih =>
    have hbits : (d >>> 1).getLsbD = d.getLsbD ∘ Nat.succ := funext fun i => by simp [Nat.add_comm]
    rw [shiftSteps_succ, shiftStep_xor, ih, hbits, ← List.map_map, ← BitVec.shiftRight_add, Nat.add_comm 1 n,
      List.range_succ_eq_map, List.map_cons, List.foldl_cons]

/-- `n` shifts only move the bits from bit `n` on down. -/
theorem shiftSteps_xor_of_low_zero {d : Word} {n : Nat} (h : ∀ i < n, d.getLsbD i = false) (p v : Word) :
    shiftSteps p n (v ^^^ d) = shiftSteps p n v ^^^ (d >>> n) := by
  have hbits : (List.range n).map d.getLsbD = (List.range n).map (0#32).getLsbD :=
    List.map_congr_left fun i hi => by simp [h i (List.mem_range.mp hi)]
  have hzero := shiftSteps_xor p v 0#32 n
  rw [BitVec.xor_zero, BitVec.zero_ushiftRight, BitVec.xor_zero] at hzero
  rw [shiftSteps_xor, hbits, ← hzero]

/-- A byte has no bits above bit 7. -/
theorem zext32_ushiftRight (b : Byte) : zext32 b >>> 8 = 0#32 := by
  ext i hi
  simp [zext32]

/-- Eight shifts of a word look its low byte up and move the other bits down (41_engine.md R77). -/
theorem shiftSteps_eight (p v : Word) : shiftSteps p 8 v = tableEntry (lowByte v) p ^^^ (v >>> 8) := by
  have hlow : ∀ i < 8, (zext32 (lowByte v) ^^^ v).getLsbD i = false := fun i hi => by
    simp [zext32, lowByte, hi, show i < 32 by omega]
  have h := shiftSteps_xor_of_low_zero hlow p (zext32 (lowByte v))
  rwa [← BitVec.xor_assoc, BitVec.xor_self, BitVec.zero_xor, BitVec.ushiftRight_xor_distrib, zext32_ushiftRight,
    BitVec.zero_xor] at h

/-- One step of the table algorithm is eight reflected bit steps (41_engine.md R94). -/
theorem crcStep_buildTable (acc p : Word) (b : Byte) :
    crcStep (buildTable p) acc b = shiftSteps p 8 (acc ^^^ zext32 b) := by
  have hlow : lowByte (acc ^^^ zext32 b) = lowByte acc ^^^ b :=
    BitVec.setWidth_xor.trans (congrArg (lowByte acc ^^^ ·) (lowByte_zext32 b))
  rw [shiftSteps_eight, hlow, BitVec.ushiftRight_xor_distrib, zext32_ushiftRight, BitVec.xor_zero, crcStep,
    memRead_buildTable, crcIndex_eq, BitVec.xor_comm]

/-- A step of the table algorithm takes the bits of its byte one at a time (20_memory.md R37). -/
theorem crcStep_buildTable_eq_serial (acc p : Word) (b : Byte) :
    crcStep (buildTable p) acc b = (bitsLsbFirst b).foldl (serialStep p) acc := by
  have hbits : (List.range 8).map (zext32 b).getLsbD = bitsLsbFirst b := List.map_congr_left fun i hi => by
    have hlt : i < 32 := Nat.lt_trans (List.mem_range.mp hi) (by decide)
    simp [zext32, hlt]
  rw [crcStep_buildTable, shiftSteps_xor, hbits, zext32_ushiftRight, BitVec.xor_zero]

end Sys2Proof.Machine
end

section
/-! The statements of 20_memory.md. -/
namespace Sys2Proof.Proofs

open Sys2Proof.Machine Sys2Proof.Safety

/-- Settles O7, by whether there is an event. -/
theorem stepTakesOldestEvent : Obligations.StepTakesOldestEvent := by
  unfold Obligations.StepTakesOldestEvent
  intro s t h
  cases hin : s.inbox with
  | nil =>
    rw [step_of_empty hin, Host.Outcome.next.injEq] at h
    exact .inl ⟨rfl, h.symm⟩
  | cons e rest => exact .inr ⟨e, by rw [step_inbox hin h]⟩

/-- Settles O9: the events of the interface complete, and the others are faults. -/
theorem onlyDefinedAccessesStep : Obligations.OnlyDefinedAccessesStep := by
  unfold Obligations.OnlyDefinedAccessesStep
  intro s e rest hin
  rw [step_of_cons hin, ← eventDefined_iff]
  rcases takeEvent_cases e { s with inbox := rest } with ⟨hdef, hnext⟩ | ⟨hdef, f, hf⟩
  · exact ⟨iff_of_true hnext hdef, fun hstuck => absurd hnext hstuck⟩
  · exact ⟨iff_of_false (by simp [hf]) (by simpa using hdef), fun _ => ⟨f, hf⟩⟩

/-- Settles O11: the step of a read, and the answer of each register. -/
theorem hostReadAnswers : Obligations.HostReadAnswers := by
  unfold Obligations.HostReadAnswers
  intro s
  refine ⟨fun off r h4 hlt hin => step_of_read h4 hlt hin, rfl, rfl, rfl, rfl, rfl, fun hd => ?_, fun hv => ?_, rfl,
    fun off hlo hhi => hostRead_reserved hlo hhi s, fun i hv => ?_⟩
  · rw [hostRead_result, hd, specifiedWhen_true]
  · rw [hostRead_tablePoly, hv, specifiedWhen_true]
  · rw [hostRead_table, hv, specifiedWhen_true]
    rfl

/-- Settles O12: the step of a read and of one after it, and by induction a run of reads. -/
theorem readsHaveNoSideEffects : Obligations.ReadsHaveNoSideEffects := by
  unfold Obligations.ReadsHaveNoSideEffects
  refine ⟨fun s off rest h4 hlt hin => ?_, fun s t h off => ?_, fun s offs rest hoffs hin => run_reads offs s rest hoffs hin⟩
  · refine ⟨_, step_of_read h4 hlt hin, ⟨rfl, rfl, rfl, rfl, rfl, rfl, rfl, rfl⟩, rfl, rfl, rfl, _, rfl, ?_⟩
    rintro w rest' hw rfl
    refine ⟨_, step_of_read h4 hlt rfl, ?_⟩
    simp [hw]
  · obtain ⟨harg, hbuf, hst, hmask, htab, hpoly, hres, hdef⟩ := h
    exact hostRead_congr harg hbuf hst hmask htab hpoly hres hdef

/-- Settles O13: what such an offset answers, and the step of a write that is ignored. -/
theorem reservedAndReadOnly : Obligations.ReservedAndReadOnly := by
  unfold Obligations.ReservedAndReadOnly
  intro s off rest h4 hlt
  refine ⟨fun hoff hin => ?_, fun w hoff hin => step_of_ignoredWrite h4 hlt hoff hin⟩
  have hzero : hostRead off s = .word 0#32 := by
    rcases hoff with rfl | rfl | ⟨hlo, hhi⟩
    · rfl
    · rfl
    · exact hostRead_reserved hlo hhi s
  rw [step_of_read h4 hlt hin, hzero]

/-- Settles O33, by induction on the bytes. -/
theorem checksumIsBitSerialCrc : Obligations.ChecksumIsBitSerialCrc := by
  unfold Obligations.ChecksumIsBitSerialCrc
  intro p s
  have hstep : crcStep (buildTable p) = fun acc b => (bitsLsbFirst b).foldl (serialStep p) acc :=
    funext₂ fun acc b => crcStep_buildTable_eq_serial acc p b
  rw [crc, serialCrc, hstep, ← List.foldl_flatMap]
  rfl

/-- Settles O10: the map read off `regAt`, at the offset of each register. -/
theorem registerMap : Obligations.RegisterMap := by
  unfold Obligations.RegisterMap
  exact ⟨rfl, rfl, rfl, rfl, rfl, rfl, rfl, rfl, fun off hlo hhi => regAt_reserved hlo hhi, regAt_table,
    fun r => ⟨regAt_offset r, r.offset_aligned⟩⟩

/-- Settles O43: a command completes, and clears its byte operand. -/
theorem everyCommandCompletes : Obligations.EveryCommandCompletes := by
  unfold Obligations.EveryCommandCompletes
  intro i s
  obtain ⟨t, ht⟩ := exec_completes i s
  exact ⟨t, ht, exec_clears_operands ht⟩

end Sys2Proof.Proofs
end

section
/-! SUPPORT. The command word: its fields and the word are the same data, and the decoder answers a command exactly on that
command's own fields. -/
namespace Sys2Proof

/-- A word is the word of its fields (30_encoding.md R52). -/
theorem CmdFields.toWord_ofWord (w : Word) : (CmdFields.ofWord w).toWord = w := by
  have hsrc : BitVec.ofBool (w.getLsbD 4) = w.extractLsb' 4 1 := by
    ext i hi
    obtain rfl : i = 0 := by omega
    simp
  have hhigh : w.extractLsb' 5 27 ++ w.extractLsb' 4 1 = w.extractLsb' 4 28 :=
    BitVec.extractLsb'_append_extractLsb'_eq_extractLsb' rfl
  have hall : w.extractLsb' 4 28 ++ w.extractLsb' 0 4 = w.extractLsb' 0 32 :=
    BitVec.extractLsb'_append_extractLsb'_eq_extractLsb' rfl
  simp only [toWord, ofWord, hsrc, hhigh, hall, BitVec.extractLsb'_eq_self]

/-- The fields of a word are read back from it (30_encoding.md R52). -/
theorem CmdFields.ofWord_toWord (f : CmdFields) : CmdFields.ofWord f.toWord = f := by
  have hop : f.toWord.extractLsb' 0 4 = f.op := BitVec.extractLsb'_append_eq_right
  have hsrc : f.toWord.getLsbD 4 = f.src :=
    calc f.toWord.getLsbD 4
      _ = (f.rsvd ++ BitVec.ofBool f.src).getLsbD 0 := BitVec.getLsbD_append
      _ = (BitVec.ofBool f.src).getLsbD 0 := BitVec.getLsbD_append
      _ = f.src := by simp
  have hrsvd : f.toWord.extractLsb' 5 27 = f.rsvd :=
    (BitVec.extractLsb'_append_eq_of_le (by decide)).trans BitVec.extractLsb'_append_eq_left
  simp only [ofWord, hop, hsrc, hrsvd]

/-- RSVD is 0 exactly if bits 31:5 of the word are (30_encoding.md R52). -/
theorem CmdFields.rsvd_ofWord_eq_zero_iff {w : Word} : (CmdFields.ofWord w).rsvd = 0#27 ↔ w >>> 5 = 0#32 := by
  have hw : w.toNat >>> 5 < 2 ^ 27 := by
    rw [Nat.shiftRight_eq_div_pow]
    omega
  rw [← BitVec.toNat_inj, ← BitVec.toNat_inj, ofWord, BitVec.extractLsb'_toNat, Nat.mod_eq_of_lt hw,
    BitVec.toNat_ushiftRight]
  rfl

/-- Fields that pass the checks of a legal word are those of a command (30_encoding.md R53). -/
theorem CmdFields.exists_instr_of_wellFormed {f : CmdFields} (h : f.wellFormed = true) : ∃ i : Instr, i.fields = f := by
  obtain ⟨op, src, rsvd⟩ := f
  simp only [wellFormed, rsvdZero, opKnown, Bool.and_eq_true, beq_iff_eq, decide_eq_true_eq] at h
  obtain ⟨⟨rfl, hlo, hhi⟩, hsrc⟩ := h
  have hop : op = 1#4 ∨ op = 2#4 ∨ op = 3#4 ∨ op = 4#4 := by bv_omega
  rcases hop with rfl | rfl | rfl | rfl
  · obtain rfl : src = false := by simpa [srcAllowed] using hsrc
    exact ⟨.parse, rfl⟩
  · cases src with
    | false => exact ⟨.build, rfl⟩
    | true => exact ⟨.buildM, rfl⟩
  · obtain rfl : src = false := by simpa [srcAllowed] using hsrc
    exact ⟨.compute, rfl⟩
  · cases src with
    | false => exact ⟨.crc32, rfl⟩
    | true => exact ⟨.crc32M, rfl⟩

/-- The fields of every command pass the checks of a legal word (30_encoding.md R56). -/
theorem Instr.wellFormed_fields (i : Instr) : i.fields.wellFormed = true :=
  match i with
  | .parse   => Laws.FieldsWellFormed.parse.1
  | .build   => Laws.FieldsWellFormed.build.1
  | .buildM  => Laws.FieldsWellFormed.buildM.1
  | .compute => Laws.FieldsWellFormed.compute.1
  | .crc32   => Laws.FieldsWellFormed.crc32.1
  | .crc32M  => Laws.FieldsWellFormed.crc32M.1

/-- The checks of a legal word fail exactly in the cases 30_encoding.md R56 lists. -/
theorem CmdFields.wellFormed_eq_false_iff {f : CmdFields} :
    f.wellFormed = false ↔ f.rsvd ≠ 0#27 ∨ f.op = 0#4 ∨ 5 ≤ f.op.toNat ∨ ((f.op = 1#4 ∨ f.op = 3#4) ∧ f.src = true) := by
  have hop : ¬ (1 ≤ f.op.toNat ∧ f.op.toNat ≤ 4) ↔ f.op = 0#4 ∨ 5 ≤ f.op.toNat := by
    rw [← BitVec.toNat_inj, BitVec.toNat_ofNat]
    omega
  simp only [wellFormed, rsvdZero, opKnown, srcAllowed, Bool.and_eq_false_iff, beq_eq_false_iff_ne, decide_eq_false_iff_not,
    hop, Bool.not_eq_false', Bool.and_eq_true, Bool.or_eq_true, beq_iff_eq]
  tauto

/-- A word is a command exactly if its fields are that command's (30_encoding.md R53, R54). -/
theorem decode_eq_instr_iff_fields {w : Word} {i : Instr} : decode w = .instr i ↔ CmdFields.ofWord w = i.fields := by
  constructor
  · intro h
    rcases hf : CmdFields.ofWord w with ⟨op, src, rsvd⟩
    have hop : op = BitVec.ofNat 4 op.toNat := by simp
    simp only [decode, hf] at h
    rw [hop]
    generalize op.toNat = n at h
    split at h
    · cases h
    · next hrsvd =>
      rw [not_not.mp hrsvd]
      split at h <;> cases h <;> rfl
  · intro h
    simp only [decode, h]
    cases i <;> rfl

/-- Decoding and encoding agree both ways (30_encoding.md R52 to R54). -/
theorem decode_eq_instr_iff {w : Word} {i : Instr} : decode w = .instr i ↔ w = encode i := by
  rw [decode_eq_instr_iff_fields, encode]
  constructor
  · intro h
    rw [← h, CmdFields.toWord_ofWord]
  · rintro rfl
    exact CmdFields.ofWord_toWord _

/-- A word decodes to a command exactly if its fields pass the checks (30_encoding.md R54, R56). -/
theorem exists_decode_eq_instr_iff {w : Word} :
    (∃ i, decode w = .instr i) ↔ (CmdFields.ofWord w).wellFormed = true := by
  simp only [decode_eq_instr_iff_fields]
  constructor
  · rintro ⟨i, hi⟩
    rw [hi, i.wellFormed_fields]
  · intro h
    obtain ⟨i, hi⟩ := CmdFields.exists_instr_of_wellFormed h
    exact ⟨i, hi.symm⟩

/-- A word is illegal exactly if its fields fail the checks (30_encoding.md R54, R56). -/
theorem exists_decode_eq_illegal_iff {w : Word} :
    (∃ why, decode w = .illegal why) ↔ (CmdFields.ofWord w).wellFormed = false := by
  rw [← Bool.not_eq_true, ← exists_decode_eq_instr_iff]
  cases decode w <;> simp

end Sys2Proof
end

section
/-! SUPPORT. The step of any write to CMD, and a CRC32.M whose mask PARSE did not leave. -/
namespace Sys2Proof.Machine

variable {s t : State} {rest : List Event} {w : Word}

/-- A write of an illegal word to CMD raises ILLEGAL (30_encoding.md R56). -/
theorem step_of_illegal {why : Illegal} (hin : s.inbox = commandWrite s.cfg w :: rest) (hd : decode w = .illegal why) :
    step s = .next (State.raise .illegal .illegal { s with inbox := rest }) := by
  have hrun : runCommand w { s with inbox := rest } = .next (execIllegal { s with inbox := rest }) := by
    simp only [runCommand, hd]
  rw [step_of_cons hin]
  exact (takeEvent_commandWrite w { s with inbox := rest }).trans hrun

/-- Every write to CMD, of a legal word or not, is a step that empties OPBUF (30_encoding.md R60). -/
theorem step_commandWrite_opbuf (hin : s.inbox = commandWrite s.cfg w :: rest) : ∃ t, step s = .next t ∧ t.opbuf = [] := by
  cases hd : decode w with
  | instr i =>
    obtain ⟨t, ht⟩ := exec_completes i { s with inbox := rest }
    exact ⟨t, (step_of_command hin hd).trans ht, (exec_clears_operands ht).1⟩
  | illegal why => exact ⟨_, step_of_illegal hin hd, by simp⟩

/-- A PARSE that fails leaves PARSE_OK 0 (40_parser.md R73). -/
theorem exec_parse_parseOk_of_err (h : exec .parse s = .next t) (herr : t.status.err ≠ .none) :
    t.status.parseOk = false := by
  rcases exec_parse_cases h with ⟨-, rfl⟩ | ⟨-, e, -, rfl⟩ | ⟨-, m, -, rfl⟩
  · simp
  · simp
  · simp at herr

/-- CRC32.M without a mask from PARSE fails with NO_POLY (41_engine.md R86). -/
theorem exec_crc32M_of_not_parseOk (hovf : s.status.ovf = false) (hok : s.status.parseOk = false) :
    exec .crc32M s = .next (s.raise .checksum .noPoly) := by
  simp only [exec, execCrc32M, bytesOperand_of_not_ovf hovf, maskOperand_of_not_ok hok]

end Sys2Proof.Machine
end

section
/-! The statements of 30_encoding.md. -/
namespace Sys2Proof.Proofs

open Sys2Proof.Machine Sys2Proof.Safety

/-- Settles O2: the decoder reads the fields, and the fields and the word are the same data. -/
theorem decodeIffEncode : Obligations.DecodeIffEncode := by
  unfold Obligations.DecodeIffEncode
  exact ⟨fun w i _ => decode_eq_instr_iff, CmdFields.toWord_ofWord, CmdFields.ofWord_toWord⟩

/-- Settles O4: the checks of a legal word and where they fail, and the step of a word that fails them. -/
theorem illegalWords : Obligations.IllegalWords := by
  unfold Obligations.IllegalWords
  refine ⟨fun w => ?_, fun s rest w why hin hd => ⟨_, step_of_illegal hin hd, ?_⟩⟩
  · rw [exists_decode_eq_illegal_iff, CmdFields.wellFormed_eq_false_iff, Ne, CmdFields.rsvd_ofWord_eq_zero_iff]
    rfl
  · simp [EndedWith, SameMask, SameTable, SameResult]

/-- Settles O1: a command's one word is its encoding, evaluated. -/
theorem sixLegalWords : Obligations.SixLegalWords := by
  unfold Obligations.SixLegalWords
  exact ⟨fun w => decode_eq_instr_iff (i := .parse), fun w => decode_eq_instr_iff (i := .build),
    fun w => decode_eq_instr_iff (i := .buildM), fun w => decode_eq_instr_iff (i := .compute),
    fun w => decode_eq_instr_iff (i := .crc32), fun w => decode_eq_instr_iff (i := .crc32M)⟩

/-- Settles O3: the decoder evaluated on each word. -/
theorem wordsDecodeAsListed : Obligations.WordsDecodeAsListed := by
  unfold Obligations.WordsDecodeAsListed
  decide

/-- Settles O53: each encoding, evaluated. -/
theorem statementsExpand : Obligations.StatementsExpand := by
  unfold Obligations.StatementsExpand
  intro str imm r n
  exact ⟨rfl, rfl, rfl, rfl, rfl, rfl, rfl, rfl, rfl, rfl, rfl, rfl, rfl, rfl, rfl, rfl, rfl⟩

/-- Settles O54: what a PARSE that failed leaves for CRC32.M, and that every write to CMD empties OPBUF. -/
theorem pseudoInstructionsExpand : Obligations.PseudoInstructionsExpand := by
  unfold Obligations.PseudoInstructionsExpand
  refine ⟨fun str poly imm => ⟨rfl, rfl, rfl, rfl⟩, fun s t data h herr => ?_, fun s w rest hin hne => ?_,
    fun s imm why rest hd hin => ⟨_, step_of_illegal hin hd, by simp⟩⟩
  · have hovf : t.status.ovf = false := (exec_clears_operands h).2
    have hok : t.status.parseOk = false := exec_parse_parseOk_of_err h herr
    exact ⟨_, exec_crc32M_of_not_parseOk (s := { t with opbuf := data }) hovf hok, by simp [SameTable]⟩
  · obtain ⟨t, ht, hbuf⟩ := step_commandWrite_opbuf hin
    exact ⟨t, ht, hbuf, fun ⟨_, hsame, _⟩ => hne (hsame ▸ hbuf)⟩

end Sys2Proof.Proofs
end

section
/-! SUPPORT. What the parser answers for a text, and the state PARSE leaves with each answer. -/
namespace Sys2Proof.Machine

variable {fold : Bool} {s t : State} {text : Bytes} {m : Word} {e : ErrCode}

/-- Letters are looked for byte by byte (40_parser.md R65). -/
theorem any_isX_eq_false_iff : text.any (isX fold) = false ↔ ∀ b ∈ text, isX fold b = false := by
  simp only [List.any_eq_false, Bool.not_eq_true]

/-- A parse is NO_X exactly for a text without a letter (40_parser.md R65). -/
theorem parsePolynomial_eq_noX_iff :
    parsePolynomial fold text = .error .noX ↔ ∀ b ∈ strip text, isX fold b = false := by
  rw [← any_isX_eq_false_iff]
  rcases parsePolynomial_cases fold text with ⟨hx, hp⟩ | ⟨hx, -, hp⟩ | ⟨hx, -, hp⟩ <;> simp [hx, hp]

/-- A text with a letter and no mask bit is ZERO_MASK (40_parser.md R71). -/
theorem parsePolynomial_of_zero_mask (hx : ∃ b ∈ strip text, isX fold b = true)
    (hm : polyMask fold (strip text) = 0#32) : parsePolynomial fold text = .error .zeroMask := by
  simp only [parsePolynomial, List.any_eq_true.mpr hx, hm, if_true]

/-- A text with a letter and a mask bit gives its mask (40_parser.md R72). -/
theorem parsePolynomial_of_mask (hx : ∃ b ∈ strip text, isX fold b = true) (hm : polyMask fold (strip text) ≠ 0#32) :
    parsePolynomial fold text = .ok (polyMask fold (strip text)) := by
  simp only [parsePolynomial, List.any_eq_true.mpr hx, hm, if_true, if_false]

theorem parseOutcome_of_ovf (h : s.status.ovf = true) : parseOutcome s = .error .overflow := by
  simp only [parseOutcome, bytesOperand_of_ovf h]

theorem parseOutcome_of_not_ovf (h : s.status.ovf = false) : parseOutcome s = parsePolynomial s.cfg.xCaseFold s.opbuf := by
  simp only [parseOutcome, bytesOperand_of_not_ovf h]

/-- PARSE looks at the bytes, OVF and X_CASE_FOLD only (40_parser.md R75). -/
theorem parseOutcome_congr (hbuf : t.opbuf = s.opbuf) (hovf : t.status.ovf = s.status.ovf)
    (hfold : t.cfg.xCaseFold = s.cfg.xCaseFold) : parseOutcome t = parseOutcome s := by
  simp only [parseOutcome, bytesOperand, hbuf, hovf, hfold]

/-- PARSE raises the code its text is answered with (40_parser.md R73). -/
theorem exec_parse_of_error (h : parseOutcome s = .error e) : exec .parse s = .next (s.raise .parse e) := by
  simp only [exec, execParse, h]

/-- PARSE writes the mask its text is answered with (40_parser.md R72). -/
theorem exec_parse_of_ok (h : parseOutcome s = .ok m) : exec .parse s = .next ((s.writeMask m).endCommand .none) := by
  simp only [exec, execParse, h]

/-- PARSE leaves NO_X in ERR exactly if its text is answered with NO_X. -/
theorem exec_parse_err_eq_noX_iff :
    (∃ t, exec .parse s = .next t ∧ t.status.err = .noX) ↔ parseOutcome s = .error .noX := by
  cases h : parseOutcome s with
  | error e => simp [exec_parse_of_error h]
  | ok m => simp [exec_parse_of_ok h]

end Sys2Proof.Machine
end

section
/-! SUPPORT. What the parser's helpers compute on a cleaned text: the value of a run of digits, the bit of a degree, the
bits of the scan, and the constant-term heuristic. -/
namespace Sys2Proof.Machine

open Sys2Proof.Safety

variable {fold : Bool} {c : Bytes} {b : Byte}

/-- The six bytes of WS_SET (40_parser.md R64). -/
theorem whitespace_contains_iff : Config.whitespace.contains b = true ↔
    b = 0x09#8 ∨ b = 0x0A#8 ∨ b = 0x0B#8 ∨ b = 0x0C#8 ∨ b = 0x0D#8 ∨ b = 0x20#8 := by
  simp only [Config.whitespace, List.contains_iff_mem, List.mem_cons, List.not_mem_nil, or_false]

/-- Stripping drops a byte of WS_SET and keeps any other (40_parser.md R64). -/
theorem strip_cons (b : Byte) (r : Bytes) :
    strip (b :: r) = if Config.whitespace.contains b = true then strip r else b :: strip r := by
  rw [strip, List.filter_cons]
  cases Config.whitespace.contains b <;> rfl

@[simp] theorem decimalSum_nil : decimalSum [] = 0 := rfl

/-- The first digit counts with the highest power of ten (40_parser.md R70). -/
theorem decimalSum_cons (b : Byte) (ds : Bytes) :
    decimalSum (b :: ds) = (b.toNat - 0x30) * 10 ^ ds.length + decimalSum ds := by
  simp [decimalSum, Fin.sum_univ_succ, Nat.sub_sub, Nat.add_comm]

/-- The digits read so far move up by one place for each digit to come. -/
theorem foldl_digits (ds : Bytes) (n : Nat) :
    ds.foldl (fun n b => 10 * n + (b.toNat - 0x30)) n = n * 10 ^ ds.length + decimalSum ds := by
  induction ds generalizing n with
  | nil => simp
  | cons b ds ih => rw [List.foldl_cons, ih, decimalSum_cons, List.length_cons]; ring

/-- The digits read one after the other give the sum of their powers of ten (40_parser.md R70). -/
theorem decimal_eq_decimalSum (ds : Bytes) : decimal ds = decimalSum ds := by
  simp [decimal, foldl_digits]

/-- A leading zero does not change the value (40_parser.md R70). -/
theorem decimal_zero_cons (ds : Bytes) : decimal (0x30#8 :: ds) = decimal ds := rfl

theorem degreeBit_of_gt {d : Nat} (h : 31 < d) : degreeBit d = 0#32 := if_neg (by omega)

/-- A degree up to 31 sets the bit of its number and no other (40_parser.md R68). -/
theorem getLsbD_degreeBit_of_le {d : Nat} (hd : d ≤ 31) (k : Nat) : (degreeBit d).getLsbD k = true ↔ k = d := by
  have hlt : d < 32 := Nat.lt_succ_of_le hd
  rw [degreeBit, if_pos hd, ← BitVec.twoPow_eq, BitVec.getLsbD_twoPow]
  simp [hlt, eq_comm]

/-- Of the bits of a mask any degree sets at most that of its number (40_parser.md R68). -/
theorem getLsbD_degreeBit {d k : Nat} (hk : k < 32) : (degreeBit d).getLsbD k = true ↔ k = d := by
  by_cases hd : d ≤ 31
  · exact getLsbD_degreeBit_of_le hd k
  · have hne : k ≠ d := by omega
    simp [degreeBit_of_gt (Nat.lt_of_not_le hd), hne]

/-- What the scan of a text finds, with no jump: the bit of the degree read after each variable letter. -/
def letterBits (fold : Bool) (c : Bytes) : Word :=
  match c with
  | []     => 0#32
  | b :: r =>
    if isX fold b then degreeBit (termDegree ((dropCaret r).takeWhile isDigit)) ||| letterBits fold r
    else letterBits fold r

theorem letterBits_of_isX (h : isX fold b = true) (r : Bytes) : letterBits fold (b :: r) =
    degreeBit (termDegree ((dropCaret r).takeWhile isDigit)) ||| letterBits fold r := by simp [letterBits, h]

theorem letterBits_of_not_isX (h : isX fold b = false) (r : Bytes) : letterBits fold (b :: r) = letterBits fold r := by
  simp [letterBits, h]

/-- A jump over digits passes no letter. -/
theorem letterBits_dropWhile_isDigit (fold : Bool) (c : Bytes) :
    letterBits fold (c.dropWhile isDigit) = letterBits fold c := by
  induction c with
  | nil => rfl
  | cons b r ih =>
    rw [List.dropWhile_cons]
    split
    · next hb => rw [ih, letterBits_of_not_isX (isX_of_isDigit hb fold)]
    · rfl

/-- A jump over the caret passes no letter. -/
theorem letterBits_dropCaret (fold : Bool) (c : Bytes) : letterBits fold (dropCaret c) = letterBits fold c := by
  cases c with
  | nil => rfl
  | cons b r =>
    rw [dropCaret]
    split
    · next hb => rw [hb, letterBits_of_not_isX (isX_caret fold)]
    · rfl

/-- The loop adds the bits of the letters still to come to its mask, given a round for each byte (40_parser.md R66). -/
theorem scanLoop_eq_letterBits (n : Nat) (m : Word) (c : Bytes) (h : c.length ≤ n) :
    scanLoop fold n m c = m ||| letterBits fold c := by
  induction n generalizing m c with
  | zero =>
    obtain rfl := List.eq_nil_of_length_eq_zero (Nat.le_zero.mp h)
    simp [letterBits]
  | succ n ih =>
    cases c with
    | nil => simp [letterBits]
    | cons b r =>
      have hr : r.length ≤ n := Nat.le_of_succ_le_succ h
      cases hb : isX fold b with
      | false => rw [scanLoop_other hb, ih _ _ hr, letterBits_of_not_isX hb]
      | true =>
        have hlen : ((dropCaret r).dropWhile isDigit).length ≤ n :=
          ((List.dropWhile_suffix _).length_le.trans (dropCaret_length_le r)).trans hr
        rw [scanLoop_term hb, ih _ _ hlen, letterBits_dropWhile_isDigit, letterBits_dropCaret, letterBits_of_isX hb,
          BitVec.or_assoc]

theorem scanTerms_eq_letterBits (fold : Bool) (c : Bytes) : scanTerms fold c = letterBits fold c := by
  rw [scanTerms, scanLoop_eq_letterBits _ _ _ le_rfl, BitVec.zero_or]

@[simp] theorem scanTerms_nil (fold : Bool) : scanTerms fold [] = 0#32 := rfl

/-- The scan of a letter ORs in the bit of the degree after it (40_parser.md R66). -/
theorem scanTerms_of_isX (h : isX fold b = true) (c : Bytes) : scanTerms fold (b :: c) =
    degreeBit (termDegree ((dropCaret c).takeWhile isDigit)) ||| scanTerms fold c := by
  rw [scanTerms_eq_letterBits, letterBits_of_isX h, scanTerms_eq_letterBits]

/-- The scan passes over any other byte. -/
theorem scanTerms_of_not_isX (h : isX fold b = false) (c : Bytes) : scanTerms fold (b :: c) = scanTerms fold c := by
  rw [scanTerms_eq_letterBits, letterBits_of_not_isX h, scanTerms_eq_letterBits]

theorem polyMask_of_constTerm (h : constTerm c = true) (fold : Bool) : polyMask fold c = scanTerms fold c ||| 1#32 := by
  simp only [polyMask, h, if_true]

theorem polyMask_of_not_constTerm (h : constTerm c = false) (fold : Bool) : polyMask fold c = scanTerms fold c := by
  simp [polyMask, h]

/-- The heuristic's bit is bit 0 (40_parser.md R69). -/
theorem getLsbD_polyMask (fold : Bool) (c : Bytes) (d : Nat) : (polyMask fold c).getLsbD d = true ↔
    (scanTerms fold c).getLsbD d = true ∨ (d = 0 ∧ constTerm c = true) := by
  cases h : constTerm c with
  | false => simp [polyMask_of_not_constTerm h]
  | true => simp [polyMask_of_constTerm h]

/-- The substring "+1" stands at some index (40_parser.md R69). -/
theorem hasPlusOne_iff (text : Bytes) :
    hasPlusOne text = true ↔ ∃ i : Nat, text[i]? = some 0x2B#8 ∧ text[i + 1]? = some 0x31#8 := by
  induction text with
  | nil => simp [hasPlusOne]
  | cons a r ih =>
    have hcons : hasPlusOne (a :: r) = true ↔ (a = 0x2B#8 ∧ r[0]? = some 0x31#8) ∨ hasPlusOne r = true := by
      cases r <;> simp [hasPlusOne]
    rw [hcons, ih, ← Nat.or_exists_add_one (p := fun i => (a :: r)[i]? = some 0x2B#8 ∧ (a :: r)[i + 1]? = some 0x31#8)]
    simp

/-- The heuristic by indices (40_parser.md R69). -/
theorem constTerm_iff (text : Bytes) : constTerm text = true ↔
    (∃ i : Nat, text[i]? = some 0x2B#8 ∧ text[i + 1]? = some 0x31#8) ∨
      (0 < text.length ∧ text[text.length - 1]? = some 0x31#8) := by
  have hlast : text[text.length - 1]? = some 0x31#8 → 0 < text.length := fun h =>
    Nat.zero_lt_of_lt (List.getElem?_eq_some_iff.mp h).1
  rw [constTerm, Bool.or_eq_true, hasPlusOne_iff, beq_iff_eq, List.getLast?_eq_getElem?, and_iff_right_of_imp hlast]

end Sys2Proof.Machine
end

section
/-! SUPPORT. The terms of a text, as the pattern of 40_parser.md R66 and R67 finds them, are those the scan finds. -/
namespace Sys2Proof.Safety

open Sys2Proof.Machine

/-- What `dropCaret` leaves is the text after the pattern's optional caret. -/
theorem dropCaret_eq_iff {c rest : Bytes} : dropCaret c = rest ↔
    ∃ caret, c = caret ++ rest ∧ (caret = [0x5E#8] ∨ (caret = [] ∧ rest.head? ≠ some 0x5E#8)) := by
  constructor
  · rintro rfl
    cases c with
    | nil => exact ⟨[], rfl, .inr ⟨rfl, by simp [dropCaret]⟩⟩
    | cons b r =>
      by_cases hb : b = 0x5E#8
      · exact ⟨[b], by simp [dropCaret, hb], .inl (by rw [hb])⟩
      · exact ⟨[], by simp [dropCaret, hb], .inr ⟨rfl, by simp [dropCaret, hb]⟩⟩
  · rintro ⟨caret, rfl, rfl | ⟨rfl, h⟩⟩
    · simp [dropCaret]
    · cases rest with
      | nil => rfl
      | cons b r => simp_all [dropCaret]

/-- The run of digits that starts a text is the longest one: it ends where a byte is no digit. -/
theorem takeWhile_isDigit_eq_iff {c ds : Bytes} : c.takeWhile isDigit = ds ↔
    ∃ after, c = ds ++ after ∧ (∀ b ∈ ds, isDigit b = true) ∧ (∀ b, after.head? = some b → isDigit b = false) := by
  constructor
  · rintro rfl
    refine ⟨c.dropWhile isDigit, List.takeWhile_append_dropWhile.symm, fun b hb => List.mem_takeWhile_imp hb, ?_⟩
    intro b hb
    have hnot := List.head?_dropWhile_not isDigit c
    rwa [hb] at hnot
  · rintro ⟨after, rfl, hds, hafter⟩
    rw [List.takeWhile_append_of_pos hds]
    cases after with
    | nil => simp
    | cons b r => simp [hafter b rfl]

theorem termDegree_eq_ite (ds : Bytes) : termDegree ds = if ds = [] then 1 else decimalSum ds := by
  rw [termDegree, decimal_eq_decimalSum]

theorem not_hasTerm_nil (fold : Bool) (d : Nat) : ¬ HasTerm fold [] d := by
  rintro ⟨before, x, caret, ds, after, hc, -⟩
  simp at hc

/-- A term of a text is read at its first byte or stands in the rest. -/
theorem hasTerm_cons {fold : Bool} {b : Byte} {c : Bytes} {d : Nat} : HasTerm fold (b :: c) d ↔
    (isX fold b = true ∧ d = termDegree ((dropCaret c).takeWhile isDigit)) ∨ HasTerm fold c d := by
  constructor
  · rintro ⟨before, x, caret, ds, after, hc, hx, hcaret, hds, hafter, hd⟩
    cases before with
    | nil =>
      obtain ⟨rfl, rfl⟩ := List.cons.inj hc
      have hdrop : dropCaret (caret ++ ds ++ after) = ds ++ after :=
        dropCaret_eq_iff.mpr ⟨caret, List.append_assoc _ _ _, hcaret⟩
      have htake : (ds ++ after).takeWhile isDigit = ds := takeWhile_isDigit_eq_iff.mpr ⟨after, rfl, hds, hafter⟩
      exact .inl ⟨hx, by rw [hdrop, htake, termDegree_eq_ite, hd]⟩
    | cons a before =>
      obtain ⟨rfl, rfl⟩ := List.cons.inj hc
      exact .inr ⟨before, x, caret, ds, after, rfl, hx, hcaret, hds, hafter, hd⟩
  · rintro (⟨hx, hd⟩ | ⟨before, x, caret, ds, after, rfl, hterm⟩)
    · obtain ⟨caret, hc, hcaret⟩ := dropCaret_eq_iff.mp (rfl : dropCaret c = _)
      obtain ⟨after, hdrop, hds, hafter⟩ := takeWhile_isDigit_eq_iff.mp (rfl : (dropCaret c).takeWhile isDigit = _)
      refine ⟨[], b, caret, (dropCaret c).takeWhile isDigit, after, ?_, hx, hdrop ▸ hcaret, hds, hafter, ?_⟩
      · rw [List.append_assoc, ← hdrop, ← hc, List.nil_append]
      · rw [hd, termDegree_eq_ite]
    · exact ⟨b :: before, x, caret, ds, after, rfl, hterm⟩

/-- The bits of the scan are the degrees of the text's terms (40_parser.md R66 to R68). -/
theorem getLsbD_scanTerms {fold : Bool} {d : Nat} (hd : d < 32) (c : Bytes) :
    (scanTerms fold c).getLsbD d = true ↔ HasTerm fold c d := by
  induction c with
  | nil => simp [not_hasTerm_nil]
  | cons b c ih =>
    rw [hasTerm_cons, ← ih]
    cases hb : isX fold b with
    | false => simp [scanTerms_of_not_isX hb]
    | true => simp [scanTerms_of_isX hb, getLsbD_degreeBit hd]

end Sys2Proof.Safety
end

section
/-! The statements of 40_parser.md. -/
namespace Sys2Proof.Proofs

open Sys2Proof.Machine Sys2Proof.Safety

/-- Settles O22: the answer of the parser in each case, and what `raise` writes. -/
theorem parseFails : Obligations.ParseFails := by
  unfold Obligations.ParseFails
  intro s code hcause
  have hout : parseOutcome s = .error code := by
    rcases hcause with ⟨rfl, hovf⟩ | ⟨rfl, hovf, hx⟩ | ⟨rfl, hovf, hx, hm⟩
    · exact parseOutcome_of_ovf hovf
    · rw [parseOutcome_of_not_ovf hovf, parsePolynomial_eq_noX_iff.mpr hx]
    · rw [parseOutcome_of_not_ovf hovf, parsePolynomial_of_zero_mask hx hm]
  refine ⟨_, exec_parse_of_error hout, ?_⟩
  simp [EndedWith, SameTable, SameResult, SameSurroundings]

/-- Settles O23: the letter by its codes, and NO_X as the parser's answer. -/
theorem variableLetterCheck : Obligations.VariableLetterCheck := by
  unfold Obligations.VariableLetterCheck
  refine ⟨fun b => by simp [isX], fun b => by simp [isX], rfl, fun s hovf => ?_⟩
  rw [exec_parse_err_eq_noX_iff, parseOutcome_of_not_ovf hovf, parsePolynomial_eq_noX_iff]

/-- Settles O25: the scan's bits are the terms, and the heuristic's is bit 0. -/
theorem maskBitsAreTheTerms : Obligations.MaskBitsAreTheTerms := by
  unfold Obligations.MaskBitsAreTheTerms
  intro fold c d hd
  rw [getLsbD_polyMask, getLsbD_scanTerms hd]

/-- Settles O26: the scan is the OR over the letters, since it jumps over digits and carets only. -/
theorem everyLetterStartsOneTerm : Obligations.EveryLetterStartsOneTerm := by
  unfold Obligations.EveryLetterStartsOneTerm
  exact fun fold c b => ⟨fun hx => scanTerms_of_isX hx c, fun hx => scanTerms_of_not_isX hx c⟩

/-- Settles O28: the heuristic by indices, and the mask with and without it. -/
theorem constantTermHeuristic : Obligations.ConstantTermHeuristic := by
  unfold Obligations.ConstantTermHeuristic
  exact fun text => ⟨constTerm_iff text, fun fold h => polyMask_of_constTerm h fold,
    fun fold h => polyMask_of_not_constTerm h fold⟩

/-- Settles O29: Horner's scheme gives the sum, a leading zero adds nothing, and degrees above 31 have no bit. -/
theorem decimalValueIsUnbounded : Obligations.DecimalValueIsUnbounded := by
  unfold Obligations.DecimalValueIsUnbounded
  exact fun ds _ _ => ⟨decimal_eq_decimalSum ds, decimal_zero_cons ds, fun h => degreeBit_of_gt (by omega)⟩

/-- Settles O21: the parser answers the mask, and what PARSE writes with it. -/
theorem parseSucceeds : Obligations.ParseSucceeds := by
  unfold Obligations.ParseSucceeds
  intro s hovf hx hm
  have hout : parseOutcome s = .ok (polyMask s.cfg.xCaseFold (strip s.opbuf)) := by
    rw [parseOutcome_of_not_ovf hovf, parsePolynomial_of_mask hx hm]
  refine ⟨_, exec_parse_of_ok hout, ?_⟩
  simp [EndedWith, SameTable, SameResult, SameSurroundings, hm]

/-- Settles O24: stripping byte by byte, with WS_SET as its six bytes. -/
theorem stripKeepsTheRestInOrder : Obligations.StripKeepsTheRestInOrder := by
  unfold Obligations.StripKeepsTheRestInOrder
  exact ⟨strip_nil, fun b t => by simp only [strip_cons, whitespace_contains_iff]⟩

/-- Settles O27: the shifted 1 has one bit, and from 32 on there is none. -/
theorem degreeToMaskBit : Obligations.DegreeToMaskBit := by
  unfold Obligations.DegreeToMaskBit
  exact ⟨fun d k hd => getLsbD_degreeBit_of_le hd k, degreeBit_of_gt (by decide), fun d hd => degreeBit_of_gt (by omega)⟩

/-- Settles O30: the same answer of the parser, and the same writes. -/
theorem parseIsDeterministic : Obligations.ParseIsDeterministic := by
  unfold Obligations.ParseIsDeterministic
  intro s s' hbuf hovf hfold
  have hsame : parseOutcome s' = parseOutcome s := parseOutcome_congr hbuf hovf hfold
  cases hout : parseOutcome s with
  | error e => exact ⟨_, _, exec_parse_of_error hout, exec_parse_of_error (hsame.trans hout), by simp⟩
  | ok m => exact ⟨_, _, exec_parse_of_ok hout, exec_parse_of_ok (hsame.trans hout), by simp⟩

end Sys2Proof.Proofs
end

section
/-! SUPPORT. The laws of the table (41_engine.md R81): each step of an entry is linear over GF(2), and so are the entries;
with the mask 0 a step only shifts, and so does the checksum. -/
namespace Sys2Proof.Machine

/-- A shift is linear over GF(2) (41_engine.md R81): the mask is combined in exactly if one of the two words is odd. -/
theorem shiftStep_linear (p v w : Word) : shiftStep p (v ^^^ w) = shiftStep p v ^^^ shiftStep p w := by
  have hodd : (v ^^^ w).getLsbD 0 = (v.getLsbD 0 ^^ w.getLsbD 0) := BitVec.getLsbD_xor
  cases hv : v.getLsbD 0 <;> cases hw : w.getLsbD 0 <;> rw [hv, hw] at hodd
  · rw [shiftStep_of_even hodd, shiftStep_of_even hv, shiftStep_of_even hw, BitVec.ushiftRight_xor_distrib]
  · rw [shiftStep_of_odd hodd, shiftStep_of_even hv, shiftStep_of_odd hw, BitVec.ushiftRight_xor_distrib, BitVec.xor_assoc]
  · rw [shiftStep_of_odd hodd, shiftStep_of_odd hv, shiftStep_of_even hw, BitVec.ushiftRight_xor_distrib, BitVec.xor_assoc,
      BitVec.xor_assoc, BitVec.xor_comm (w >>> 1)]
  · rw [shiftStep_of_even hodd, shiftStep_of_odd hv, shiftStep_of_odd hw, BitVec.ushiftRight_xor_distrib,
      BitVec.xor_comm (w >>> 1), BitVec.xor_assoc, ← BitVec.xor_assoc p, BitVec.xor_self, BitVec.zero_xor]

/-- A run of shifts is linear over GF(2), as each of them is. -/
theorem shiftSteps_linear (p v w : Word) (n : Nat) :
    shiftSteps p n (v ^^^ w) = shiftSteps p n v ^^^ shiftSteps p n w := by
  induction n generalizing v w with
  | zero => rfl
  | succ n ih => simp only [shiftSteps_succ, shiftStep_linear, ih]

theorem shiftSteps_of_zero (p : Word) (n : Nat) : shiftSteps p n 0#32 = 0#32 := by
  induction n with
  | zero => rfl
  | succ n ih => exact ih

/-- The entry of `i ^ j` is the XOR of the entries (41_engine.md R81). -/
theorem tableEntry_xor (i j : Byte) (p : Word) : tableEntry (i ^^^ j) p = tableEntry i p ^^^ tableEntry j p := by
  have hext : zext32 (i ^^^ j) = zext32 i ^^^ zext32 j := BitVec.setWidth_xor
  simp only [tableEntry, hext, shiftSteps_linear]

/-- Entry 0 is 0 (41_engine.md R81). -/
theorem tableEntry_zero (p : Word) : tableEntry 0x00#8 p = 0#32 := shiftSteps_of_zero p 8

/-- Seven shifts of 0x80 give 1, and the eighth gives the mask (41_engine.md R81). -/
theorem tableEntry_0x80 (p : Word) : tableEntry 0x80#8 p = p := by
  have hlow : ∀ i < 7, (0x80#32).getLsbD i = false := by decide
  have hseven : shiftSteps p 7 0x80#32 = 1#32 := by
    simpa [shiftSteps_of_zero] using shiftSteps_xor_of_low_zero hlow p 0#32
  calc tableEntry 0x80#8 p
    _ = shiftSteps p 1 (shiftSteps p 7 0x80#32) := shiftSteps_add p 0x80#32 7 1
    _ = shiftStep p 1#32 := by rw [hseven, shiftSteps_succ, shiftSteps_zero]
    _ = p := BitVec.zero_xor

theorem shiftStep_zero_mask (v : Word) : shiftStep 0#32 v = v >>> 1 := by
  cases hv : v.getLsbD 0
  · exact shiftStep_of_even hv
  · rw [shiftStep_of_odd hv, BitVec.xor_zero]

theorem shiftSteps_zero_mask (v : Word) (n : Nat) : shiftSteps 0#32 n v = v >>> n := by
  induction n generalizing v with
  | zero => simp
  | succ n ih => rw [shiftSteps_succ, shiftStep_zero_mask, ih, ← BitVec.shiftRight_add, Nat.add_comm]

/-- With the mask 0 the byte is shifted out (41_engine.md R81). -/
theorem tableEntry_zero_mask (i : Byte) : tableEntry i 0#32 = 0#32 :=
  (shiftSteps_zero_mask (zext32 i) 8).trans (zext32_ushiftRight i)

theorem crcStep_zero_mask (acc : Word) (b : Byte) : crcStep (buildTable 0#32) acc b = acc >>> 8 := by
  rw [crcStep, memRead_buildTable, tableEntry_zero_mask, BitVec.xor_zero]

/-- With the mask 0 each byte shifts the accumulator by eight, whatever byte it is (41_engine.md R93). -/
theorem foldl_crcStep_zero_mask (s : Bytes) (acc : Word) :
    s.foldl (crcStep (buildTable 0#32)) acc = acc >>> (8 * s.length) := by
  induction s generalizing acc with
  | nil => simp
  | cons b s ih =>
    rw [List.foldl_cons, crcStep_zero_mask, ih, ← BitVec.shiftRight_add, List.length_cons, Nat.mul_succ, Nat.add_comm]

/-- With the mask 0 the checksum rests on the number of bytes alone (41_engine.md R93). -/
theorem crc_zero_mask {s : Bytes} {n : Nat} (h : s.length = n) :
    crc s (buildTable 0#32) = (Config.crcInit >>> (8 * n)) ^^^ Config.crcXorOut := by
  rw [crc, foldl_crcStep_zero_mask, h]

/-- Four bytes shift the accumulator out (41_engine.md R93). -/
theorem crc_zero_mask_of_four_le {s : Bytes} (h : 4 ≤ s.length) : crc s (buildTable 0#32) = 0xFFFFFFFF#32 := by
  have hout : Config.crcInit >>> (8 * s.length) = 0#32 := BitVec.ushiftRight_eq_zero (by omega)
  rw [crc_zero_mask rfl, hout]
  rfl

/-- INIT and XOROUT cancel over no bytes (41_engine.md R89). -/
@[simp] theorem crc_nil (t : Table) : crc [] t = 0#32 := BitVec.xor_self

end Sys2Proof.Machine
end

section
/-! SUPPORT. The state each engine command leaves, by the operands it has (41_engine.md R82 to R87), and what it must have
been where the command ended with no error. -/
namespace Sys2Proof.Machine

variable {s t : State}

/-- BUILD needs no operand that could be missing (41_engine.md R82). -/
theorem exec_build (s : State) : exec .build s = .next ((s.rebuild s.arg).endCommand .none) := rfl

theorem exec_buildM_of_parseOk (hok : s.status.parseOk = true) :
    exec .buildM s = .next ((s.rebuild s.mask).endCommand .none) := by
  simp only [exec, execBuildM, maskOperand_of_ok hok]

theorem exec_buildM_of_not_parseOk (hok : s.status.parseOk = false) : exec .buildM s = .next (s.raise .build .noPoly) := by
  simp only [exec, execBuildM, maskOperand_of_not_ok hok]

theorem exec_compute_of_tableValid (hovf : s.status.ovf = false) (hv : s.status.tableValid = true) :
    exec .compute s = .next ((s.checksum s.opbuf).endCommand .none) := by
  simp only [exec, execCompute, bytesOperand_of_not_ovf hovf, tableOperand_of_valid hv, State.checksum]

theorem exec_compute_of_not_tableValid (hovf : s.status.ovf = false) (hv : s.status.tableValid = false) :
    exec .compute s = .next (s.raise .checksum .noTable) := by
  simp only [exec, execCompute, bytesOperand_of_not_ovf hovf, tableOperand_of_not_valid hv]

theorem exec_compute_of_ovf (hovf : s.status.ovf = true) : exec .compute s = .next (s.raise .checksum .overflow) := by
  simp only [exec, execCompute, bytesOperand_of_ovf hovf]

theorem exec_crc32_of_not_ovf (hovf : s.status.ovf = false) :
    exec .crc32 s = .next (((s.rebuild s.arg).checksum s.opbuf).endCommand .none) := by
  simp only [exec, execCrc32, bytesOperand_of_not_ovf hovf, argOperand]

theorem exec_crc32_of_ovf (hovf : s.status.ovf = true) : exec .crc32 s = .next (s.raise .checksum .overflow) := by
  simp only [exec, execCrc32, bytesOperand_of_ovf hovf]

theorem exec_crc32M_of_parseOk (hovf : s.status.ovf = false) (hok : s.status.parseOk = true) :
    exec .crc32M s = .next (((s.rebuild s.mask).checksum s.opbuf).endCommand .none) := by
  simp only [exec, execCrc32M, bytesOperand_of_not_ovf hovf, maskOperand_of_ok hok]

theorem exec_crc32M_of_ovf (hovf : s.status.ovf = true) : exec .crc32M s = .next (s.raise .checksum .overflow) := by
  simp only [exec, execCrc32M, bytesOperand_of_ovf hovf]

theorem exec_buildM_of_err_none (h : exec .buildM s = .next t) (herr : t.status.err = .none) :
    t = (s.rebuild s.mask).endCommand .none := by
  rcases exec_buildM_cases h with ⟨-, rfl⟩ | ⟨-, ht⟩
  · simp at herr
  · exact ht

theorem exec_compute_of_err_none (h : exec .compute s = .next t) (herr : t.status.err = .none) :
    t = (s.checksum s.opbuf).endCommand .none := by
  rcases exec_compute_cases h with ⟨-, rfl⟩ | ⟨-, -, rfl⟩ | ⟨-, -, ht⟩
  · simp at herr
  · simp at herr
  · exact ht

theorem exec_crc32_of_err_none (h : exec .crc32 s = .next t) (herr : t.status.err = .none) :
    t = ((s.rebuild s.arg).checksum s.opbuf).endCommand .none := by
  rcases exec_crc32_cases h with ⟨-, rfl⟩ | ⟨-, ht⟩
  · simp at herr
  · exact ht

theorem exec_crc32M_of_err_none (h : exec .crc32M s = .next t) (herr : t.status.err = .none) :
    t = ((s.rebuild s.mask).checksum s.opbuf).endCommand .none := by
  rcases exec_crc32M_cases h with ⟨-, rfl⟩ | ⟨-, -, rfl⟩ | ⟨-, -, ht⟩
  · simp at herr
  · simp at herr
  · exact ht

end Sys2Proof.Machine

namespace Sys2Proof.Safety

open Sys2Proof.Machine

variable {s t : State}

/-- What a build writes and what it leaves unchanged (41_engine.md R79, R82, R83). -/
theorem endCommand_rebuild_frame (p : Word) (s : State) (ht : t = (s.rebuild p).endCommand .none) :
    TableOf p t ∧ EndedWith .none s t ∧ t.arg = s.arg ∧ SameMask s t ∧ SameResult s t ∧ SameSurroundings s t := by
  simp [ht, TableOf, EndedWith, SameMask, SameResult, SameSurroundings]

/-- What a build and the checksum over it write and what they leave unchanged (41_engine.md R85, R86). -/
theorem endCommand_rebuild_checksum_frame (p : Word) (s : State)
    (ht : t = ((s.rebuild p).checksum s.opbuf).endCommand .none) :
    TableOf p t ∧ t.result = crc s.opbuf (buildTable p) ∧ t.status.resultValid = true ∧ t.resultDefined = true ∧
      EndedWith .none s t ∧ t.arg = s.arg ∧ SameMask s t ∧ SameSurroundings s t := by
  simp [ht, TableOf, EndedWith, SameMask, SameSurroundings]

/-- What a failing checksum command writes and what it leaves unchanged (41_engine.md R87). -/
theorem raise_checksum_frame (code : ErrCode) (s : State) (ht : t = s.raise .checksum code) :
    EndedWith code s t ∧ t.status.resultValid = false ∧ t.result = s.result ∧ t.resultDefined = s.resultDefined ∧
      t.arg = s.arg ∧ SameMask s t ∧ SameTable s t ∧ SameSurroundings s t := by
  simp [ht, EndedWith, SameMask, SameTable, SameSurroundings]

/-- The invariant leaves one table for a mask (41_engine.md R90). -/
theorem Inv.table_eq_buildTable (h : Inv s) (hv : s.status.tableValid = true) : s.table = buildTable s.tablePoly :=
  table_ext_memRead fun i => (h.tableMatches hv i).trans (memRead_buildTable s.tablePoly i).symm

/-- Building the table again that TABLE holds changes nothing of it (41_engine.md R92). -/
theorem Inv.sameTable_rebuild (h : Inv s) (hv : s.status.tableValid = true) {p : Word} (hp : p = s.tablePoly) :
    SameTable s (s.rebuild p) := by
  simp [SameTable, hp, hv, h.table_eq_buildTable hv]

end Sys2Proof.Safety
end

section
/-! The statements of 41_engine.md. -/
namespace Sys2Proof.Proofs

open Sys2Proof.Machine Sys2Proof.Safety

/-- Settles O31: the linearity of a step, entry by entry, and the state of each command that has its operands. -/
theorem tableLaws : Obligations.TableLaws := by
  unfold Obligations.TableLaws
  intro p
  refine ⟨tableEntry_zero p, tableEntry_0x80 p, fun i j => tableEntry_xor i j p, rfl, shiftStep_linear p,
    ?_, ?_, ?_, ?_, ?_, ?_⟩
  · rintro rfl i
    exact tableEntry_zero_mask i
  · exact fun s _ => ⟨_, exec_build s, rfl⟩
  · exact fun s _ hok => ⟨_, exec_buildM_of_parseOk hok, rfl⟩
  · exact fun s _ hovf hv => ⟨_, exec_compute_of_tableValid hovf hv, rfl⟩
  · exact fun s _ hovf => ⟨_, exec_crc32_of_not_ovf hovf, rfl⟩
  · exact fun s _ hovf hok => ⟨_, exec_crc32M_of_parseOk hovf hok, rfl⟩

/-- Settles O32: the low byte is looked up, and the bits above it only move down. -/
theorem tableStepIsEightBitSteps : Obligations.TableStepIsEightBitSteps := by
  unfold Obligations.TableStepIsEightBitSteps
  exact crcStep_buildTable

/-- Settles O35: the number of bytes shifted out of the accumulator. -/
theorem zeroMaskChecksums : Obligations.ZeroMaskChecksums := by
  unfold Obligations.ZeroMaskChecksums
  exact ⟨fun a => crc_zero_mask (n := 1) rfl, fun a b => crc_zero_mask (n := 2) rfl,
    fun a b c => crc_zero_mask (n := 3) rfl, fun s h => crc_zero_mask_of_four_le h⟩

/-- Settles O41: the state of each command that ends with no error, as its operands give it. -/
theorem engineIsDeterministic : Obligations.EngineIsDeterministic := by
  unfold Obligations.EngineIsDeterministic
  refine ⟨?_, ?_, ?_, ?_, ?_⟩
  · intro s s' t t' hbuf htab h h' herr herr'
    rw [exec_compute_of_err_none h herr, exec_compute_of_err_none h' herr']
    simp [hbuf, htab]
  · intro s s' t t' hbuf harg h h' herr herr'
    rw [exec_crc32_of_err_none h herr, exec_crc32_of_err_none h' herr']
    simp [hbuf, harg]
  · intro s s' t t' hbuf hmask h h' herr herr'
    rw [exec_crc32M_of_err_none h herr, exec_crc32M_of_err_none h' herr']
    simp [hbuf, hmask]
  · intro s s' t t' harg h h'
    rw [exec_build_cases h, exec_build_cases h']
    simp [harg]
  · intro s s' t t' hmask h h' herr herr'
    rw [exec_buildM_of_err_none h herr, exec_buildM_of_err_none h' herr']
    simp [hmask]

/-- Settles O42: a command that fails leaves TABLE, and one that builds writes the table that stands there. -/
theorem rebuildChangesNothing : Obligations.RebuildChangesNothing := by
  unfold Obligations.RebuildChangesNothing
  rintro s t i hinv hv (⟨rfl | rfl, hp⟩ | ⟨rfl | rfl, hp⟩) hx
  · rw [exec_build_cases hx]
    exact (hinv.sameTable_rebuild hv hp :)
  · rcases exec_crc32_cases hx with ⟨-, rfl⟩ | ⟨-, rfl⟩
    · simp [SameTable]
    · exact (hinv.sameTable_rebuild hv hp :)
  · rcases exec_buildM_cases hx with ⟨-, rfl⟩ | ⟨-, rfl⟩
    · simp [SameTable]
    · exact (hinv.sameTable_rebuild hv hp :)
  · rcases exec_crc32M_cases hx with ⟨-, rfl⟩ | ⟨-, -, rfl⟩ | ⟨-, -, rfl⟩
    · simp [SameTable]
    · simp [SameTable]
    · exact (hinv.sameTable_rebuild hv hp :)

/-- Settles O34: INIT and XOROUT cancel, and COMPUTE writes the checksum of OPBUF. -/
theorem emptyDataChecksum : Obligations.EmptyDataChecksum := by
  unfold Obligations.EmptyDataChecksum
  refine ⟨crc_nil, fun s hbuf hovf hv => ⟨_, exec_compute_of_tableValid hovf hv, ?_⟩⟩
  simp [hbuf]

/-- Settles O36: BUILD's state, and what a build writes. -/
theorem buildCompletes : Obligations.BuildCompletes := by
  unfold Obligations.BuildCompletes
  exact ⟨rfl, fun s => ⟨_, exec_build s, endCommand_rebuild_frame s.arg s rfl⟩⟩

/-- Settles O37, by PARSE_OK. -/
theorem buildMCompletes : Obligations.BuildMCompletes := by
  unfold Obligations.BuildMCompletes
  refine ⟨rfl, fun s => ⟨fun hok => ?_, fun hok => ⟨_, exec_buildM_of_not_parseOk hok, ?_⟩⟩⟩
  · exact ⟨_, exec_buildM_of_parseOk hok, endCommand_rebuild_frame s.mask s rfl⟩
  · simp [EndedWith, SameMask, SameTable, SameResult, SameSurroundings]

/-- Settles O38, by OVF and then TABLE_VALID. -/
theorem computeCompletes : Obligations.ComputeCompletes := by
  unfold Obligations.ComputeCompletes
  refine ⟨rfl, fun s => ⟨fun hovf hv => ⟨_, exec_compute_of_tableValid hovf hv, ?_⟩, fun code hcause => ?_⟩⟩
  · simp [EndedWith, SameMask, SameTable, SameSurroundings]
  · have hx : exec .compute s = .next (s.raise .checksum code) := by
      rcases hcause with ⟨rfl, hovf⟩ | ⟨rfl, hovf, hv⟩
      · exact exec_compute_of_ovf hovf
      · exact exec_compute_of_not_tableValid hovf hv
    exact ⟨_, hx, raise_checksum_frame code s rfl⟩

/-- Settles O39, by OVF. -/
theorem crc32Completes : Obligations.Crc32Completes := by
  unfold Obligations.Crc32Completes
  refine ⟨rfl, fun s => ⟨fun hovf => ?_, fun hovf => ?_⟩⟩
  · exact ⟨_, exec_crc32_of_not_ovf hovf, endCommand_rebuild_checksum_frame s.arg s rfl⟩
  · exact ⟨_, exec_crc32_of_ovf hovf, raise_checksum_frame .overflow s rfl⟩

/-- Settles O40, by OVF and then PARSE_OK. -/
theorem crc32MCompletes : Obligations.Crc32MCompletes := by
  unfold Obligations.Crc32MCompletes
  refine ⟨rfl, fun s => ⟨fun hovf hok => ?_, fun code hcause => ?_⟩⟩
  · exact ⟨_, exec_crc32M_of_parseOk hovf hok, endCommand_rebuild_checksum_frame s.mask s rfl⟩
  · have hx : exec .crc32M s = .next (s.raise .checksum code) := by
      rcases hcause with ⟨rfl, hovf⟩ | ⟨rfl, hovf, hok⟩
      · exact exec_crc32M_of_ovf hovf
      · exact exec_crc32M_of_not_parseOk hovf hok
    exact ⟨_, hx, raise_checksum_frame code s rfl⟩

end Sys2Proof.Proofs
end

section
/-! SUPPORT. How a command that fails ends, which codes each command can end with, and what a step adds to the record of
errors (60_exceptions.md R96 to R102). -/
namespace Sys2Proof.Machine

open Sys2Proof.Safety

variable {i : Instr} {s t : State} {rest : List Event} {w : Word}

/-- The family whose failure writes a command makes where it fails (60_exceptions.md R98). BUILD, which never fails, stands
with BUILD.M. -/
def failKindOf (i : Instr) : FailKind :=
  match i with
  | .parse => .parse
  | .build | .buildM => .build
  | .compute | .crc32 | .crc32M => .checksum

/-- A command that ends with an error has raised it for its family, and made no other write (60_exceptions.md R98). -/
theorem exec_eq_raise_of_err (h : exec i s = .next t) (herr : t.status.err ≠ .none) :
    t = s.raise (failKindOf i) t.status.err := by
  cases i with
  | parse =>
    rcases exec_parse_cases h with ⟨-, rfl⟩ | ⟨-, e, -, rfl⟩ | ⟨-, m, -, rfl⟩
    · simp [failKindOf]
    · simp [failKindOf]
    · simp at herr
  | build => simp [exec_build_cases h] at herr
  | buildM =>
    rcases exec_buildM_cases h with ⟨-, rfl⟩ | ⟨-, rfl⟩
    · simp [failKindOf]
    · simp at herr
  | compute =>
    rcases exec_compute_cases h with ⟨-, rfl⟩ | ⟨-, -, rfl⟩ | ⟨-, -, rfl⟩
    · simp [failKindOf]
    · simp [failKindOf]
    · simp at herr
  | crc32 =>
    rcases exec_crc32_cases h with ⟨-, rfl⟩ | ⟨-, rfl⟩
    · simp [failKindOf]
    · simp at herr
  | crc32M =>
    rcases exec_crc32M_cases h with ⟨-, rfl⟩ | ⟨-, -, rfl⟩ | ⟨-, -, rfl⟩
    · simp [failKindOf]
    · simp [failKindOf]
    · simp at herr

/-- OVF is checked before every other cause by each command that consumes OPBUF (60_exceptions.md R97). -/
theorem exec_of_ovf (hovf : s.status.ovf = true) (hi : i ∈ [Instr.parse, .compute, .crc32, .crc32M]) :
    exec i s = .next (s.raise (failKindOf i) .overflow) := by
  cases i with
  | parse => exact exec_parse_of_error (parseOutcome_of_ovf hovf)
  | build => simp at hi
  | buildM => simp at hi
  | compute => exact exec_compute_of_ovf hovf
  | crc32 => exact exec_crc32_of_ovf hovf
  | crc32M => exact exec_crc32M_of_ovf hovf

/-! The codes each command can end with (60_exceptions.md R96). -/

theorem exec_parse_err_mem (h : exec .parse s = .next t) : t.status.err ∈ [.none, .noX, .zeroMask, .overflow] := by
  rcases exec_parse_cases h with ⟨-, rfl⟩ | ⟨-, e, he, rfl⟩ | ⟨-, m, -, rfl⟩
  · simp
  · rcases parsePolynomial_error he with rfl | rfl <;> simp
  · simp

theorem exec_build_err (h : exec .build s = .next t) : t.status.err = .none := by
  simp [exec_build_cases h]

theorem exec_buildM_err_mem (h : exec .buildM s = .next t) : t.status.err ∈ [.none, .noPoly] := by
  rcases exec_buildM_cases h with ⟨-, rfl⟩ | ⟨-, rfl⟩ <;> simp

theorem exec_compute_err_mem (h : exec .compute s = .next t) : t.status.err ∈ [.none, .noTable, .overflow] := by
  rcases exec_compute_cases h with ⟨-, rfl⟩ | ⟨-, -, rfl⟩ | ⟨-, -, rfl⟩ <;> simp

theorem exec_crc32_err_mem (h : exec .crc32 s = .next t) : t.status.err ∈ [.none, .overflow] := by
  rcases exec_crc32_cases h with ⟨-, rfl⟩ | ⟨-, rfl⟩ <;> simp

theorem exec_crc32M_err_mem (h : exec .crc32M s = .next t) : t.status.err ∈ [.none, .noPoly, .overflow] := by
  rcases exec_crc32M_cases h with ⟨-, rfl⟩ | ⟨-, -, rfl⟩ | ⟨-, -, rfl⟩ <;> simp

theorem execIllegal_err (s : State) : (execIllegal s).status.err = .illegal := by
  simp [execIllegal]

/-- The builds do not consume OPBUF, so a byte dropped from it is no error of theirs (60_exceptions.md R97). -/
theorem exec_build_or_buildM_err_ne_overflow (hi : i ∈ [Instr.build, .buildM]) (h : exec i s = .next t) :
    t.status.err ≠ .overflow := by
  cases i with
  | build => simp [exec_build_err h]
  | buildM =>
    intro hov
    simpa [hov] using exec_buildM_err_mem h
  | parse | compute | crc32 | crc32M => simp at hi

theorem runCommand_of_illegal {why : Illegal} (h : decode w = .illegal why) (s : State) :
    runCommand w s = .next (execIllegal s) := by
  simp only [runCommand, h]

/-! The record of errors (60_exceptions.md R102). -/

/-- Logging takes nothing away. -/
theorem prefix_logError (code : ErrCode) (log : List ErrCode) : log <+: logError code log := by
  by_cases hc : code = .none
  · simp [logError, hc]
  · simp [logError, hc]

/-- A command, failing or not, ends as every command does, and logs the code it leaves in ERR (60_exceptions.md R98, R102). -/
theorem exec_endedWith_err (h : exec i s = .next t) : EndedWith t.status.err s t := by
  rcases exec_next_cases h with ⟨k, e, -, -, -, rfl⟩ | ⟨-, m, -, rfl⟩ | ⟨-, p, rfl⟩ | ⟨-, -, rfl⟩ | ⟨-, p, rfl⟩ <;>
    simp [EndedWith]

/-- The step of a write to CMD, of a legal word or not, ends as every command does. -/
theorem step_commandWrite_endedWith_err (hin : s.inbox = commandWrite s.cfg w :: rest) (h : step s = .next t) :
    EndedWith t.status.err s t := by
  cases hd : decode w with
  | instr i => exact exec_endedWith_err (s := { s with inbox := rest }) ((step_of_command hin hd).symm.trans h)
  | illegal why =>
    rw [step_of_illegal hin hd, Host.Outcome.next.injEq] at h
    simp [← h, EndedWith]

/-- No step, of any event, takes an error off the record. -/
theorem step_errLog_prefix (h : step s = .next t) : s.errLog <+: t.errLog := by
  rcases step_next_cases h with ⟨-, rfl⟩ | ⟨e, rest, -, he⟩
  · exact List.prefix_rfl
  rcases he with ⟨-, rfl⟩ | ⟨off, -, -, -, rfl⟩ | ⟨w, i, -, -, hx⟩ | ⟨w, why, -, -, rfl⟩ | ⟨w, -, rfl⟩ | ⟨w, -, rfl⟩ |
    ⟨w, off, -, -, -, -, rfl⟩
  · simp
  · simp
  · obtain ⟨-, -, -, hlog⟩ := exec_endedWith_err hx
    exact hlog ▸ prefix_logError t.status.err s.errLog
  · simpa using prefix_logError .illegal s.errLog
  · simp
  · simp
  · simp

end Sys2Proof.Machine
end

section
/-! The statements of 60_exceptions.md. -/
namespace Sys2Proof.Proofs

open Sys2Proof.Machine Sys2Proof.Safety

/-- Settles O44: the codes of each command, from the states it can leave. -/
theorem outcomeCodes : Obligations.OutcomeCodes := by
  unfold Obligations.OutcomeCodes
  exact fun s t => ⟨exec_parse_err_mem, fun h => by simp [exec_build_err h], exec_buildM_err_mem, exec_compute_err_mem,
    exec_crc32_err_mem, exec_crc32M_err_mem, execIllegal_err s⟩

/-- Settles O45: the state each command leaves with the first cause that applies. -/
theorem errorPriority : Obligations.ErrorPriority := by
  unfold Obligations.ErrorPriority
  intro s
  refine ⟨fun w why hd => ⟨_, runCommand_of_illegal hd s, execIllegal_err s⟩, fun hovf i hi => ?_, fun _ i hi => ?_,
    fun hok => ?_, fun hovf hok => ?_, fun hovf hv => ?_, fun hovf hx => ?_, fun hovf hx hm => ?_⟩
  · exact ⟨_, exec_of_ovf hovf hi, by simp⟩
  · obtain ⟨t, ht⟩ := exec_completes i s
    exact ⟨t, ht, exec_build_or_buildM_err_ne_overflow hi ht⟩
  · exact ⟨_, exec_buildM_of_not_parseOk hok, by simp⟩
  · exact ⟨_, exec_crc32M_of_not_parseOk hovf hok, by simp⟩
  · exact ⟨_, exec_compute_of_not_tableValid hovf hv, by simp⟩
  · have hout : parseOutcome s = .error .noX :=
      (parseOutcome_of_not_ovf hovf).trans (parsePolynomial_eq_noX_iff.mpr (any_isX_eq_false_iff.mp hx))
    exact ⟨_, exec_parse_of_error hout, by simp⟩
  · have hout : parseOutcome s = .error .zeroMask :=
      (parseOutcome_of_not_ovf hovf).trans (parsePolynomial_of_zero_mask (List.any_eq_true.mp hx) hm)
    exact ⟨_, exec_parse_of_error hout, by simp⟩

/-- Settles O46: a command that fails has raised its code for its family, whose failure writes are read off. -/
theorem errorsArePrecise : Obligations.ErrorsArePrecise := by
  unfold Obligations.ErrorsArePrecise
  refine ⟨fun i s t h herr => ?_, fun s => ?_, fun i s t h => exec_clears_operands h⟩
  · rw [exec_eq_raise_of_err h herr]
    cases i <;> simp [failKindOf, SameTable, SameMask, SameResult]
  · simp [execIllegal, EndedWith, SameTable, SameResult, SameMask]

/-- Settles O47: how the step of a write to CMD ends, and the record along each event. -/
theorem everyErrorIsRecorded : Obligations.EveryErrorIsRecorded := by
  unfold Obligations.EveryErrorIsRecorded
  refine ⟨fun s t w rest hin h => ?_, fun s t h => step_errLog_prefix h⟩
  obtain ⟨-, -, -, hlog⟩ := step_commandWrite_endedWith_err hin h
  exact hlog

/-- Settles O8: a step with no event to take. -/
theorem idleKeepsState : Obligations.IdleKeepsState := by
  unfold Obligations.IdleKeepsState
  exact fun s hin => step_of_empty hin

end Sys2Proof.Proofs
end

section
/-! SUPPORT. The step of the reset input and the one way to lose TABLE_VALID, and what a PARSE leaves for a COMPUTE after it. -/
namespace Sys2Proof.Machine

/-- The reset input is a step from every state (70_reset_and_hazards.md R111). -/
theorem step_of_reset {s : State} {rest : List Event} (hin : s.inbox = .reset :: rest) :
    step s = .next (State.resetCore { s with inbox := rest }) := step_of_cons hin

/-- After the reset input the host reads what it reads after reset (70_reset_and_hazards.md R111; 10_state.md R30). -/
theorem hostRead_resetCore (off : Nat) (s : State) : hostRead off s.resetCore = hostRead off State.reset :=
  hostRead_congr rfl rfl rfl rfl rfl rfl rfl rfl

end Sys2Proof.Machine

namespace Sys2Proof.Safety

open Sys2Proof.Machine

variable {s t : State}

/-- A step after which TABLE_VALID is no longer 1 took the reset input (70_reset_and_hazards.md R111). -/
theorem inbox_reset_of_tableValid_lost (h : step s = .next t) (hv : s.status.tableValid = true)
    (hlost : t.status.tableValid = false) : ∃ rest, s.inbox = .reset :: rest := by
  cases hin : s.inbox with
  | nil =>
    obtain rfl : s = t := by simpa [step_of_empty hin] using h
    simp [hv] at hlost
  | cons e rest =>
    have hkept := tableValid_iff_of_event hin h
    simp only [hlost, hv, true_or, and_true, Bool.false_eq_true, false_iff, not_not] at hkept
    exact ⟨rest, by rw [hkept]⟩

/-- A PARSE, failing or not, leaves TABLE, TABLE_POLY and TABLE_VALID (70_reset_and_hazards.md R116). -/
theorem SameTable.of_exec_parse (h : exec .parse s = .next t) : SameTable s t := by
  rcases sameTable_or_built_of_exec h with ⟨hsame, -⟩ | ⟨-, -, hbuild⟩
  · exact hsame
  · simp at hbuild

end Sys2Proof.Safety
end

section
/-! The statements of 70_reset_and_hazards.md. -/
namespace Sys2Proof.Proofs

open Sys2Proof.Machine Sys2Proof.Safety

/-- Settles O19: the state the reset input leaves has the reset values of 10_state.md R30, and TABLE_VALID is lost no other
way. -/
theorem resetInputClearsEverything : Obligations.ResetInputClearsEverything := by
  unfold Obligations.ResetInputClearsEverything
  obtain ⟨harg, hopbuf, hoplen, hstatus, hmask, htable, hpoly, hresult⟩ := resetValues
  refine ⟨fun s rest hin => ⟨_, step_of_reset hin, harg, hmask, hstatus, ?_, hopbuf, fun i => ?_, ?_, ?_, rfl, rfl⟩,
    fun s t h hv hlost => inbox_reset_of_tableValid_lost h hv hlost⟩
  · exact (hostRead_resetCore _ _).trans hoplen
  · exact (hostRead_resetCore _ _).trans (htable i)
  · exact (hostRead_resetCore _ _).trans hpoly
  · exact (hostRead_resetCore _ _).trans hresult

/-- Settles O52: PARSE leaves the table and no OVF, so the COMPUTE after it has both its operands. -/
theorem tableIsNotLinkedToMask : Obligations.TableIsNotLinkedToMask := by
  unfold Obligations.TableIsNotLinkedToMask
  intro s t data hv h
  obtain ⟨htable, hpoly, hvalid⟩ := SameTable.of_exec_parse h
  obtain ⟨-, hovf⟩ := exec_clears_operands h
  refine ⟨_, exec_compute_of_tableValid (s := { t with opbuf := data }) hovf (hvalid.trans hv), ?_⟩
  simp [htable, hpoly]

end Sys2Proof.Proofs
end
